-- ==== Sys2Proof/Word.lean ====
section
/-! DEFINITION. The word types of the XCP1024 model and their plainest arithmetic. -/

namespace Sys2Proof

/-- A byte of DMEM, IMEM, HBM or host memory (00_scope.md, Notation). -/
abbrev Byte := BitVec 8

/-- A half-word, 16 bits (00_scope.md, Notation). -/
abbrev Half := BitVec 16

/-- A word or cell, 32 bits (00_scope.md, Notation). -/
abbrev Word := BitVec 32

/-- A channel number, CH0 to CH15 (00_scope.md, R11). -/
abbrev Ch := Fin 16

/-- One bit in every PE of a channel: bit `row * 1024 + col` belongs to PE (row, col) (R11, R51). -/
abbrev Sheet := BitVec 1048576

/-- The 128-bit array op word and micro-word (03, Array ops). -/
abbrev Quad := BitVec 128

/-- The lauter accumulator, a 4,352-bit two's-complement integer (R152). -/
abbrev Acc := BitVec 4352

/-- A lauter image: 140 cells, cell `n` in bits `32 n + 31` to `32 n` (06, Images). -/
abbrev LauImage := BitVec 4480

/-- Saturating increment of a 32-bit count that stops at all ones (R55, R83, R240). -/
def satInc (w : Word) (n : Nat) : Word :=
  if w.toNat + n ≥ 0xFFFFFFFF then 0xFFFFFFFF#32 else BitVec.ofNat 32 (w.toNat + n)

/-- Saturating increment of a 16-bit count that stops at all ones (R165, R238). -/
def satInc16 (w : Half) (n : Nat) : Half :=
  if w.toNat + n ≥ 0xFFFF then 0xFFFF#16 else BitVec.ofNat 16 (w.toNat + n)

end Sys2Proof
end

