-- ==== Sys2Proof/Payload.lean ====
section
/-! DEFINITION. What commands carry besides numbers: edge slots, flits, frames, packets and negotiation messages. -/

namespace Sys2Proof

/-- One edge plane: one line of 1,024 bits, or sixteen, in the exporter's ascending line order (R43, R321).
Line `j` is in bits `1024 j` to `1024 j + 1023`; a one-line slot uses line 0 only. -/
structure Slot where
  deep  : Bool
  lines : BitVec 16384
  deriving DecidableEq, Repr

/-- The flash read modes of JESD216 that Kiln uses, in the order in which it prefers them (R364, R365). -/
inductive ReadMode where
  | m144 | m114 | m122 | m112 | m111
  deriving DecidableEq, Repr

/-- What the SFDP tables of a flash device declare that Kiln uses (R364): the read modes, the frequencies of 133, 100, 66
and 50 MHz for each of them, the 4-byte-address instructions, the quad-enable method of BFPT dword 15, and the 4 KiB and
64 KiB erases. -/
structure Sfdp where
  modes     : List ReadMode
  mhz       : List (ReadMode × BitVec 16)
  fourByte  : Bool
  quad      : BitVec 3
  erase4    : Bool
  erase64   : Bool
  deriving DecidableEq, Repr

/-- What an external programmer does at a flash device: it reads a number of bytes, or writes bytes (R435). -/
inductive FlashAccess where
  | read (n : Nat)
  | write (data : List Byte)
  deriving DecidableEq, Repr

/-- How many bytes an access covers. -/
def FlashAccess.size : FlashAccess → Nat
  | .read n => n
  | .write data => data.length

/-- How Kiln addresses a flash device (R365): 4-byte-address instructions, 4-byte mode entered with 0xB7, or instruction
0x13 without SFDP. -/
inductive AddrMode where
  | instructions | entered | read13
  deriving DecidableEq, Repr

/-- How Kiln reads a flash device (R365): its read mode, addressing and clock in MHz, and the quad-enable method for a mode
of four lines. -/
structure FlashRead where
  mode : ReadMode
  addr : AddrMode
  mhz  : BitVec 16
  quad : Option (BitVec 3)
  deriving DecidableEq, Repr

/-- A flit of 64 bytes with its type: 0 control, 1 edge, 2 VC0, 3 VC1 (R317). -/
structure Flit where
  typ  : BitVec 2
  data : BitVec 512
  deriving DecidableEq, Repr

/-- A block as a port receives it (R317): its 20 control bits, the ten flits of its frame, and whether its codeword
decodes. -/
structure Frame where
  control : BitVec 20
  decoded : Bool
  flits   : Vector (BitVec 512) 10
  deriving DecidableEq, Repr

/-- A routed packet: its header flit (R323) and its payload flits. -/
structure Packet where
  hdr   : BitVec 512
  flits : List (BitVec 512)
  deriving DecidableEq, Repr

/-- What the two ends of a link learn in a negotiation (R314): the partner's message, and the lanes that are good in
both directions at 112, 56, 26.5625 and 10.3125 Gb/s. -/
structure NegMsg where
  addr     : Half
  session  : Word
  verLo    : BitVec 4
  verHi    : BitVec 4
  maxRate  : BitVec 2
  maxLanes : BitVec 2
  fecOffOk : Bool
  cstate   : BitVec 3
  hops     : BitVec 4
  good     : Vector (BitVec 5) 4
  deriving DecidableEq, Repr

/-- How a host answers a module read (R264, R352): data, an error answer, or a poisoned completion. -/
inductive HostAns where
  | data (bytes : List Byte)
  | unsupported
  | abort
  | poisoned
  deriving DecidableEq, Repr

/-- The three integers at the lauter root, each with its status (R152, R154, R165). -/
inductive LauPart where
  | acc | snap | bank
  deriving DecidableEq, Repr

/-- A soft error that strikes a memory: which code word, and whether it is uncorrectable; for a microstore copy, which of
its 128 bits flip (R444). For a lauter structure the flag says that the error is double-bit (R169). -/
inductive Upset where
  | plane (plane word : Nat) (ue : Bool)
  | ustore (tun addr : Nat) (flips : Quad)
  | imem (word : Nat) (ue : Bool)
  | dmem (word : Nat) (ue : Bool)
  | hbm (block : Nat) (ue : Bool)
  | lauter (part : LauPart) (ue : Bool)
  deriving DecidableEq, Repr

/-- A soft error that strikes the Mill, by what it leaves (R294, R305, R306): a cell record, a 36-bit block RAM word, or a
field of the global section. -/
inductive MillUpset where
  | cell (k : Nat) (r : BitVec 256)
  | ram (a : Nat) (w : BitVec 36)
  | clk (tree : Fin 4) (w : Word)
  | rate (w : Word)
  | ramCfg (b : Fin 64) (x : Byte)
  | fmt (f : Fin 16) (e : BitVec 128)
  deriving DecidableEq, Repr

/-- How the transfer of a mill image's frames ends (R302): every frame arrived and reads back right, a frame's CRC failed
twice, or a frame reads back otherwise. -/
inductive MillTransfer where
  | good | crcTwice | mismatch
  deriving DecidableEq, Repr

/-- What an op of a base routine works from (R4, R121): its op word, its descriptor as read at issue, the latches and the
planes that it reads, those of its draws among them. -/
structure OpInputs where
  word   : Quad
  descA  : Word
  descB  : Word
  c      : Sheet
  m      : Sheet
  x      : Sheet
  t      : Sheet
  planes : List Sheet
  deriving DecidableEq, Repr

/-- What HBM training finds (R284): a pseudo-channel that cannot be trained, or none and the lanes mapped to redundant
ones, with the rows of the repair record whose repair resources are exhausted. -/
structure HbmTrain where
  failing   : Option (BitVec 5)
  lanes     : BitVec 5
  exhausted : List Nat
  deriving DecidableEq, Repr

/-- What a host link partner supports (R341): its highest rate, 1 to 6, its widest width, and FLIT mode; and whether its slot
is wired reversed. -/
structure LinkPartner where
  speed   : BitVec 3
  width   : BitVec 5
  flit    : Bool
  flipped : Bool
  deriving DecidableEq, Repr

/-- The PCIe features of R339 that configuration space tells of. -/
inductive PcieFeature where
  | ecrcGeneration | ecrcChecking | aspmL1 | aspmL0s | l0p | l1Substates | noSoftReset | pme | legacyInterrupt | msi
  | sriov | ats | pri | pasid | tph | atomicOp | cxl | tag10 | tag14 | flit
  deriving DecidableEq, Repr

/-- One dword of a host write with its byte enables (R346). -/
structure Dword where
  value   : Word
  enables : BitVec 4
  deriving DecidableEq, Repr

/-- A configuration request by what it reads or sets; the spec gives no register offsets (R343, R344). -/
inductive CfgReq where
  | readId
  | readClass
  | readSubsystem
  | readAri
  | readSerial (high : Bool)
  | readInterruptPin
  | readBar (k : Fin 6)
  | readCapability (k : Nat)
  | readFeature (x : PcieFeature)
  | readPower
  | readMsix
  | readLink
  | readControl
  | command (mse bme : Bool)
  | msixControl (enable functionMask : Bool)
  | deviceControl (relaxed : Bool) (errEn maxPayload maxRead : BitVec 3)
  | linkControl (aspm : BitVec 2)
  | ecrcControl (generate check : Bool)
  | timeoutRange (r : BitVec 4)
  | bar0 (base : BitVec 64)
  | bar2 (base : BitVec 64)
  | aerStatus
  | aerClear (bits : BitVec 14)
  | aerMask (cor unc : BitVec 7)
  | aerSeverity (unc : BitVec 7)
  deriving DecidableEq, Repr

/-- The authorisation of an Obsum command: the nonce that it uses and its signature (14, Maltster services). -/
structure Auth where
  nonce : BitVec 384
  sig   : List Byte
  deriving DecidableEq, Repr

/-- What ENROL carries (R377): the owner public key and the encrypted owner's sealed material. -/
structure EnrolMsg where
  ownerKey : List Byte
  material : List Byte
  deriving DecidableEq, Repr

/-- A PLDM base or Type 2 request (R387, R390): a base query, a sensor read, or the configuration of an event receiver. -/
inductive PldmReq where
  | base
  | sensor (n : Nat)
  | eventReceiver (on : Bool)
  deriving DecidableEq, Repr

/-- What a microstore payload holds (03, The microstore image): the base revision, words by micro-address, routine table
entries by routine number, and the micro-addresses of the export list. The spec gives no byte layout of it. -/
structure MicroPart where
  rev     : Byte
  words   : List (Nat × Quad)
  entries : List (Nat × Quad)
  exports : List Nat
  deriving DecidableEq, Repr

/-- The owner's sealed material as ENROL carries it (R377): the key-encryption key, the initial owner floor, and a debug
password's salt and hash where there is one. -/
structure OwnerMaterial where
  kek      : BitVec 256
  floor    : Half
  password : Option (List Byte × BitVec 384)
  deriving DecidableEq, Repr

end Sys2Proof
end

