-- ==== Sys2Proof/Syntax.lean ====
section
/-! DEFINITION. The commands of the XCP1024, one constructor for each row of the opcode table. Controller
instructions and events name their channel; a command carries the immediates, operands or outside data of its row. -/

namespace Sys2Proof

/-- A command. The constructor's docstring names the rule of the spec that its row cites. -/
inductive Instr where
  /-- NOP, R210. -/
  | nop (c : Ch) (b0 b1 : Byte)
  /-- DUP, R210. -/
  | dup (c : Ch)
  /-- DROP, R210. -/
  | drop (c : Ch)
  /-- SWAP, R210. -/
  | swap (c : Ch)
  /-- OVER, R210. -/
  | over (c : Ch)
  /-- ROT, R210. -/
  | rot (c : Ch)
  /-- NIP, R210. -/
  | nip (c : Ch)
  /-- TUCK, R210. -/
  | tuck (c : Ch)
  /-- TWO_DUP, R210. -/
  | twoDup (c : Ch)
  /-- TWO_DROP, R210. -/
  | twoDrop (c : Ch)
  /-- PICK, R210. -/
  | pick (c : Ch) (i : Byte)
  /-- TO_R, R210. -/
  | toR (c : Ch)
  /-- R_FROM, R210. -/
  | rFrom (c : Ch)
  /-- R_FETCH, R210. -/
  | rFetch (c : Ch)
  /-- RDROP, R210. -/
  | rdrop (c : Ch)
  /-- LIT8, R210. -/
  | lit8 (c : Ch) (i : Byte)
  /-- LIT16, R210. -/
  | lit16 (c : Ch) (i : Half)
  /-- LIT24, R210. -/
  | lit24 (c : Ch) (i : BitVec 24)
  /-- LITU16, R210. -/
  | litu16 (c : Ch) (i : Half)
  /-- LITH, R210. -/
  | lith (c : Ch) (i : Half)
  /-- ADD, R211. -/
  | add (c : Ch)
  /-- ADC, R211. -/
  | adc (c : Ch)
  /-- SUB, R211. -/
  | sub (c : Ch)
  /-- SBC, R211. -/
  | sbc (c : Ch)
  /-- NEG, R211. -/
  | neg (c : Ch)
  /-- CMP, R211. -/
  | cmp (c : Ch)
  /-- AND, R211. -/
  | and (c : Ch)
  /-- OR, R211. -/
  | or (c : Ch)
  /-- XOR, R211. -/
  | xor (c : Ch)
  /-- NOT, R211. -/
  | not (c : Ch)
  /-- SHL, R212. -/
  | shl (c : Ch)
  /-- SHR, R212. -/
  | shr (c : Ch)
  /-- SAR, R212. -/
  | sar (c : Ch)
  /-- ROL, R212. -/
  | rol (c : Ch)
  /-- ROR, R212. -/
  | ror (c : Ch)
  /-- TST, R211. -/
  | tst (c : Ch)
  /-- MUL, R213. -/
  | mul (c : Ch)
  /-- MULH, R213. -/
  | mulh (c : Ch)
  /-- MULHU, R213. -/
  | mulhu (c : Ch)
  /-- MULW, R213. -/
  | mulw (c : Ch)
  /-- MULWU, R213. -/
  | mulwu (c : Ch)
  /-- DIVS, R213. -/
  | divs (c : Ch)
  /-- DIVU, R213. -/
  | divu (c : Ch)
  /-- MIN, R211. -/
  | min (c : Ch)
  /-- MAX, R211. -/
  | max (c : Ch)
  /-- MINU, R211. -/
  | minu (c : Ch)
  /-- MAXU, R211. -/
  | maxu (c : Ch)
  /-- ABS, R211. -/
  | abs (c : Ch)
  /-- CLZ, R211. -/
  | clz (c : Ch)
  /-- CTZ, R211. -/
  | ctz (c : Ch)
  /-- POPC, R211. -/
  | popc (c : Ch)
  /-- ADDI, R211. -/
  | addi (c : Ch) (i : Half)
  /-- ANDI, R211. -/
  | andi (c : Ch) (i : Half)
  /-- ORI, R211. -/
  | ori (c : Ch) (i : Half)
  /-- XORI, R211. -/
  | xori (c : Ch) (i : Half)
  /-- CMPI, R211. -/
  | cmpi (c : Ch) (i : Half)
  /-- SHLI, R212. -/
  | shli (c : Ch) (i : Byte)
  /-- SHRI, R212. -/
  | shri (c : Ch) (i : Byte)
  /-- SARI, R212. -/
  | sari (c : Ch) (i : Byte)
  /-- RORI, R212. -/
  | rori (c : Ch) (i : Byte)
  /-- CHKB, R214. -/
  | chkb (c : Ch)
  /-- CHKBU, R214. -/
  | chkbu (c : Ch)
  /-- LD_B, R215. -/
  | ldB (c : Ch) (am : Byte) (d : Half)
  /-- LD_BU, R215. -/
  | ldBu (c : Ch) (am : Byte) (d : Half)
  /-- LD_H, R215. -/
  | ldH (c : Ch) (am : Byte) (d : Half)
  /-- LD_HU, R215. -/
  | ldHu (c : Ch) (am : Byte) (d : Half)
  /-- LD_W, R215. -/
  | ldW (c : Ch) (am : Byte) (d : Half)
  /-- ST_B, R215. -/
  | stB (c : Ch) (am : Byte) (d : Half)
  /-- ST_H, R215. -/
  | stH (c : Ch) (am : Byte) (d : Half)
  /-- ST_W, R215. -/
  | stW (c : Ch) (am : Byte) (d : Half)
  /-- IREAD, R215. -/
  | iread (c : Ch)
  /-- IN, R215. -/
  | ioIn (c : Ch) (i : Half)
  /-- INS, R215. -/
  | ins (c : Ch)
  /-- OUT, R215. -/
  | ioOut (c : Ch) (i : Half)
  /-- OUTS, R215. -/
  | outs (c : Ch)
  /-- TO_A, R216. -/
  | toA (c : Ch) (n : Fin 8)
  /-- A_FROM, R216. -/
  | aFrom (c : Ch) (n : Fin 8)
  /-- ADDA, R216. -/
  | adda (c : Ch) (n : Fin 8) (i : Half)
  /-- JMP, R217. -/
  | jmp (c : Ch) (i : BitVec 24)
  /-- JMPS, R217. -/
  | jmps (c : Ch)
  /-- CALL, R175. -/
  | call (c : Ch) (i : BitVec 24) (mask : Half)
  /-- CALLS, R175. -/
  | calls (c : Ch) (i : Half)
  /-- RET, R176. -/
  | ret (c : Ch)
  /-- RETI, R195. -/
  | reti (c : Ch)
  /-- BRK, R217. -/
  | brk (c : Ch)
  /-- LOOP, R182. -/
  | loop (c : Ch) (i : Half)
  /-- ENDL, R184. -/
  | endl (c : Ch)
  /-- REP, R185. -/
  | rep (c : Ch) (n : Half)
  /-- BCC, R218. -/
  | bcc (c : Ch) (cc : BitVec 4) (i : Half)
  /-- FADD, R219. -/
  | fadd (c : Ch)
  /-- FSUB, R219. -/
  | fsub (c : Ch)
  /-- FMUL, R219. -/
  | fmul (c : Ch)
  /-- FDIV, R219. -/
  | fdiv (c : Ch)
  /-- FSQRT, R219. -/
  | fsqrt (c : Ch)
  /-- FMA, R219. -/
  | fma (c : Ch)
  /-- FNEG, R219. -/
  | fneg (c : Ch)
  /-- FABS, R219. -/
  | fabs (c : Ch)
  /-- FMIN, R219. -/
  | fmin (c : Ch)
  /-- FMAX, R219. -/
  | fmax (c : Ch)
  /-- FCMP, R220. -/
  | fcmp (c : Ch)
  /-- FCVT_S_W, R219. -/
  | fcvtSW (c : Ch)
  /-- FCVT_S_WU, R219. -/
  | fcvtSWu (c : Ch)
  /-- FCVT_W_S, R219. -/
  | fcvtWS (c : Ch)
  /-- FCVT_WU_S, R219. -/
  | fcvtWuS (c : Ch)
  /-- FCVT_S_H, R219. -/
  | fcvtSH (c : Ch)
  /-- FCVT_H_S, R219. -/
  | fcvtHS (c : Ch)
  /-- FCVT_S_BF, R219. -/
  | fcvtSBf (c : Ch)
  /-- FCVT_BF_S, R219. -/
  | fcvtBfS (c : Ch)
  /-- PERM_B4, R221. -/
  | permB4 (c : Ch) (i : Byte)
  /-- PERM_H2, R221. -/
  | permH2 (c : Ch) (i : Byte)
  /-- ADD_B4, R221. -/
  | addB4 (c : Ch)
  /-- SUB_B4, R221. -/
  | subB4 (c : Ch)
  /-- ADDS_B4, R221. -/
  | addsB4 (c : Ch)
  /-- ADDUS_B4, R221. -/
  | addusB4 (c : Ch)
  /-- SUBS_B4, R221. -/
  | subsB4 (c : Ch)
  /-- SUBUS_B4, R221. -/
  | subusB4 (c : Ch)
  /-- CEQ_B4, R221. -/
  | ceqB4 (c : Ch)
  /-- CGT_B4, R221. -/
  | cgtB4 (c : Ch)
  /-- ADD_H2, R221. -/
  | addH2 (c : Ch)
  /-- SUB_H2, R221. -/
  | subH2 (c : Ch)
  /-- ADDS_H2, R221. -/
  | addsH2 (c : Ch)
  /-- ADDUS_H2, R221. -/
  | addusH2 (c : Ch)
  /-- SUBS_H2, R221. -/
  | subsH2 (c : Ch)
  /-- SUBUS_H2, R221. -/
  | subusH2 (c : Ch)
  /-- CEQ_H2, R221. -/
  | ceqH2 (c : Ch)
  /-- CGT_H2, R221. -/
  | cgtH2 (c : Ch)
  /-- MINS_B4, R221. -/
  | minsB4 (c : Ch)
  /-- MAXS_B4, R221. -/
  | maxsB4 (c : Ch)
  /-- MINU_B4, R221. -/
  | minuB4 (c : Ch)
  /-- MAXU_B4, R221. -/
  | maxuB4 (c : Ch)
  /-- MUL_B4, R221. -/
  | mulB4 (c : Ch)
  /-- DOTS_B4, R221. -/
  | dotsB4 (c : Ch)
  /-- DOTU_B4, R221. -/
  | dotuB4 (c : Ch)
  /-- AVGU_B4, R221. -/
  | avguB4 (c : Ch)
  /-- MINS_H2, R221. -/
  | minsH2 (c : Ch)
  /-- MAXS_H2, R221. -/
  | maxsH2 (c : Ch)
  /-- MINU_H2, R221. -/
  | minuH2 (c : Ch)
  /-- MAXU_H2, R221. -/
  | maxuH2 (c : Ch)
  /-- MUL_H2, R221. -/
  | mulH2 (c : Ch)
  /-- DOTS_H2, R221. -/
  | dotsH2 (c : Ch)
  /-- DOTU_H2, R221. -/
  | dotuH2 (c : Ch)
  /-- AVGU_H2, R221. -/
  | avguH2 (c : Ch)
  /-- AOP, R198. -/
  | aop (c : Ch)
  /-- ARED, R161. -/
  | ared (c : Ch)
  /-- AFENCE, R199. -/
  | afence (c : Ch)
  /-- RFENCE, R201. -/
  | rfence (c : Ch)
  /-- YIELD, R106. -/
  | yield (c : Ch)
  /-- RESUME, R108. -/
  | resume (c : Ch)
  /-- EI, R223. -/
  | ei (c : Ch)
  /-- DI, R223. -/
  | di (c : Ch)
  /-- WFI, R224. -/
  | wfi (c : Ch)
  /-- SETVL, R188. -/
  | setvl (c : Ch)
  /-- VLD, R229. -/
  | vld (c : Ch) (am : Byte) (d : Half)
  /-- VLDFF, R230. -/
  | vldff (c : Ch) (am : Byte) (d : Half)
  /-- VST, R229. -/
  | vst (c : Ch) (am : Byte) (d : Half)
  /-- VSPLAT, R227. -/
  | vsplat (c : Ch)
  /-- VEXTR, R227. -/
  | vextr (c : Ch)
  /-- VDUP, R227. -/
  | vdup (c : Ch)
  /-- VDROP, R227. -/
  | vdrop (c : Ch)
  /-- VSWAP, R227. -/
  | vswap (c : Ch)
  /-- VOVER, R227. -/
  | vover (c : Ch)
  /-- VFADD, R227. -/
  | vfadd (c : Ch)
  /-- VFSUB, R227. -/
  | vfsub (c : Ch)
  /-- VFMUL, R227. -/
  | vfmul (c : Ch)
  /-- VFMA, R227. -/
  | vfma (c : Ch)
  /-- VFMIN, R227. -/
  | vfmin (c : Ch)
  /-- VFMAX, R227. -/
  | vfmax (c : Ch)
  /-- VFNEG, R227. -/
  | vfneg (c : Ch)
  /-- VFABS, R227. -/
  | vfabs (c : Ch)
  /-- VFREDSUM, R228. -/
  | vfredsum (c : Ch)
  /-- VCVT_S_W, R227. -/
  | vcvtSW (c : Ch)
  /-- VCVT_W_S, R227. -/
  | vcvtWS (c : Ch)
  /-- VADD, R227. -/
  | vadd (c : Ch)
  /-- VSUB, R227. -/
  | vsub (c : Ch)
  /-- VMUL, R227. -/
  | vmul (c : Ch)
  /-- VAND, R227. -/
  | vand (c : Ch)
  /-- VOR, R227. -/
  | vor (c : Ch)
  /-- VXOR, R227. -/
  | vxor (c : Ch)
  /-- VREDADD, R228. -/
  | vredadd (c : Ch)
  /-- ASYNC_TRAP_ENTRY, R193. -/
  | asyncTrapEntry (c : Ch)
  /-- AOP_QUEUE_ENTRY_FREE, R19. -/
  | aopQueueEntryFree (c : Ch)
  /-- ARED_WAIT_END, R161. -/
  | aredWaitEnd (c : Ch)
  /-- AFENCE_WAIT_END, R199. -/
  | afenceWaitEnd (c : Ch)
  /-- RFENCE_WAIT_END, R201. -/
  | rfenceWaitEnd (c : Ch)
  /-- YIELD_STATUS_KNOWN, R106. -/
  | yieldStatusKnown (c : Ch)
  /-- RESUME_STALL_END, R108. -/
  | resumeStallEnd (c : Ch)
  /-- OUT_STALL_END, R49. -/
  | outStallEnd (c : Ch)
  /-- WFI_WAKE, R224. -/
  | wfiWake (c : Ch)
  /-- ARRAY_OP_ISSUE, R66. -/
  | arrayOpIssue (c : Ch)
  /-- ADMIT, R64. -/
  | arrayAdmit (c : Ch)
  /-- SEQ_INC, R74. -/
  | seqInc (c : Ch)
  /-- SEQ_JMP, R74. -/
  | seqJmp (c : Ch)
  /-- SEQ_JC, R74. -/
  | seqJc (c : Ch)
  /-- SEQ_JNC, R74. -/
  | seqJnc (c : Ch)
  /-- SEQ_CALL, R74. -/
  | seqCall (c : Ch)
  /-- SEQ_RET, R74. -/
  | seqRet (c : Ch)
  /-- SEQ_LOOP, R74. -/
  | seqLoop (c : Ch)
  /-- SEQ_LDLOOP, R74. -/
  | seqLdloop (c : Ch)
  /-- SEQ_WAIT, R74. -/
  | seqWait (c : Ch)
  /-- SEQ_WAITJ, R74. -/
  | seqWaitj (c : Ch)
  /-- SEQ_END, R74. -/
  | seqEnd (c : Ch)
  /-- SEQ_TRAPPT, R74. -/
  | seqTrappt (c : Ch)
  /-- SEQ_ENDTRAP, R74. -/
  | seqEndtrap (c : Ch)
  /-- SEQ_HALT, R74. -/
  | seqHalt (c : Ch)
  /-- GOR_VALID, R77. -/
  | gorValid (c : Ch) (differ : Bool)
  /-- ROOT_COUNT_ADD, R153. -/
  | rootCountAdd (c : Ch) (differ : Bool)
  /-- ROOT_CLEAR, R154. -/
  | rootClear (c : Ch)
  /-- ROOT_SFLAG, R154. -/
  | rootSflag (c : Ch)
  /-- ROOT_SNAP, R154. -/
  | rootSnap (c : Ch)
  /-- ROOT_LOAD, R154. -/
  | rootLoad (c : Ch)
  /-- ROOT_MERGE, R154. -/
  | rootMerge (c : Ch)
  /-- ROOT_XSEND, R164. -/
  | rootXsend (c : Ch)
  /-- ROOT_ROUND, R168. -/
  | rootRound (c : Ch)
  /-- EDGE_RELEASE_STROBE, R87. -/
  | edgeReleaseStrobe (c : Ch)
  /-- EDGE_STALL_LIMIT, R48. -/
  | edgeStallLimit (c : Ch)
  /-- EDGE_SLOT_ARRIVE, R321. -/
  | edgeSlotArrive (c : Ch) (e : Fin 4)
  /-- YIELD_BOUNDARY, R448. -/
  | yieldBoundary (c : Ch)
  /-- TRAP_SAVE_COMPLETE, R100. -/
  | trapSaveComplete (c : Ch)
  /-- SIGNATURE_COMPARE, R89. -/
  | signatureCompare (c : Ch) (bad : BitVec 64)
  /-- PLANE_CE_WRITEBACK, R55. -/
  | planeCeWriteback (c : Ch) (tun : Fin 64) (column : Bool)
  /-- PLANE_STAGING_ACCESS, R62. -/
  | planeStagingAccess (c : Ch) (tun : Fin 64)
  /-- ARRAY_QCTL_GO, R67. -/
  | arrayQctlGo (c : Ch)
  /-- ARRAY_QCTL_DROP, R67. -/
  | arrayQctlDrop (c : Ch)
  /-- ARRAY_QCTL_FLUSH, R67. -/
  | arrayQctlFlush (c : Ch)
  /-- ARRAY_TRAP_CTL_ABANDON, R109. -/
  | arrayTrapCtlAbandon (c : Ch)
  /-- ARRAY_EDGE_CTL_WRITE, R49. -/
  | arrayEdgeCtlWrite (c : Ch) (v : Word)
  /-- GFD_WRITE, R118. -/
  | gfdWrite (c : Ch) (n : Fin 32) (v : Word)
  /-- GFD_PRESET, R119. -/
  | gfdPreset (c : Ch) (v : Word)
  /-- ARRAY_SEED_LO_WRITE, R150. -/
  | arraySeedLoWrite (c : Ch) (v : Word)
  /-- ARRAY_SEED_HI_WRITE, R150. -/
  | arraySeedHiWrite (c : Ch) (v : Word)
  /-- ARRAY_SR_EPOCH_LO_WRITE, R150. -/
  | arraySrEpochLoWrite (c : Ch) (v : Word)
  /-- ARRAY_SR_EPOCH_HI_WRITE, R150. -/
  | arraySrEpochHiWrite (c : Ch) (v : Word)
  /-- ARRAY_SR_CTL_MARK, R150. -/
  | arraySrCtlMark (c : Ch)
  /-- LSNAP_WRITE, R163. -/
  | lsnapWrite (c : Ch) (n : Fin 140) (v : Word)
  /-- LAUTER_XDEST_WRITE, R166. -/
  | lauterXdestWrite (c : Ch) (n : Fin 8) (v : Word)
  /-- LRX_EXPECT_WRITE, R166. -/
  | lrxExpectWrite (c : Ch) (v : Word)
  /-- SPLIT_REGISTER_LOW_READ, R94. -/
  | splitRegisterLowRead (c : Ch) (a : Half)
  /-- STACK_POINTER_WRITE, R174. -/
  | stackPointerWrite (c : Ch) (a : Half) (v : Word)
  /-- INT_SET, R197. -/
  | intSet (c : Ch) (v : Word)
  /-- REGISTER_WRITE, R7. -/
  | registerWrite (c : Ch) (a : Half) (v : Word)
  /-- H2C_MBOX_WRITE, R197. -/
  | h2cMboxWrite (c : Ch) (v : Word)
  /-- C2H_MBOX_WRITE, R351. -/
  | c2hMboxWrite (c : Ch) (v : Word)
  /-- MGMT_MB_WRITE, R197. -/
  | mgmtMbWrite (c : Ch) (v : Word)
  /-- PLANE_RET_SET, R245. -/
  | planeRetSet (c : Ch)
  /-- PLANE_RET_CLEAR, R246. -/
  | planeRetClear (c : Ch)
  /-- MEM_CE_WRITEBACK, R240. -/
  | memCeWriteback (c : Ch) (imem : Bool) (word : Nat)
  /-- IMEM_WAIT_LIMIT, R234. -/
  | imemWaitLimit (c : Ch)
  /-- DMEM_WRITE_RETRY, R238. -/
  | dmemWriteRetry (c : Ch) (tag : Nat) (lands : Bool)
  /-- SPARGE_REGION_START, R247. -/
  | spargeRegionStart (c : Ch) (mem : Fin 3) (region : BitVec 13)
  /-- SPARGE_STEP, R249. -/
  | spargeStep (c : Ch) (mem : Fin 3) (fails : List Nat) (upsets : List Upset)
  /-- SPARGE_STARVED, R253. -/
  | spargeStarved (c : Ch) (mem : Fin 3)
  /-- SPARGE_USTORE_READ, R255. -/
  | spargeUstoreRead (c : Ch) (tun : Fin 72) (addr : Nat)
  /-- RQ_SQDB_WRITE, R267. -/
  | rqSqdbWrite (c : Ch) (q : Fin 256) (v : Word)
  /-- RQ_CQDB_WRITE, R267. -/
  | rqCqdbWrite (c : Ch) (q : Fin 256) (v : Word)
  /-- RQ_CFG_ENABLE, R266. -/
  | rqCfgEnable (c : Ch) (q : Fin 256) (v : Word)
  /-- RQ_CFG_DISABLE, R266. -/
  | rqCfgDisable (c : Ch) (q : Fin 256) (v : Word)
  /-- DOORBELL_SAMPLE, R21. -/
  | doorbellSample (c : Ch) (q : Fin 256)
  /-- SQ_ENTRY_FETCH, R268. -/
  | sqEntryFetch (c : Ch) (q : Fin 256)
  /-- RACK_NOP, R261. -/
  | rackNop (c : Ch) (tag : Nat)
  /-- RACK_COPY, R261. -/
  | rackCopy (c : Ch) (tag : Nat) (clash : List Nat)
  /-- RACK_FILL, R261. -/
  | rackFill (c : Ch) (tag : Nat) (clash : List Nat)
  /-- RACK_FENCE, R261. -/
  | rackFence (c : Ch) (tag : Nat)
  /-- TRANSFER_COMPLETE, R274. -/
  | transferComplete (c : Ch) (tag : Nat) (clash : List Nat)
  /-- CQ_WORD_RETRY, R450. -/
  | cqWordRetry (c : Ch) (q : Fin 256) (lands : Bool)
  /-- RQ_MOD_TIMER_EXPIRE, R276. -/
  | rqModTimerExpire (c : Ch) (q : Fin 256)
  /-- INBOUND_HBM_WRITE, R277. -/
  | inboundHbmWrite (c : Ch)
  /-- INBOUND_PLANE_WRITE, R277. -/
  | inboundPlaneWrite (c : Ch)
  /-- INBOUND_NOTIFY_WRITE, R279. -/
  | inboundNotifyWrite (c : Ch) (ended : Bool) (clash : List Nat)
  /-- RESPONSE_RECEIVE, R278. -/
  | responseReceive (c : Ch)
  /-- RACK_RTIMEOUT_EXPIRE, R278. -/
  | rackRtimeoutExpire (c : Ch) (tag : Nat)
  /-- HBM_SCRUB_READ, R285. -/
  | hbmScrubRead (c : Ch) (block : Nat)
  /-- HBM_REFRESH, R282. -/
  | hbmRefresh (c : Ch)
  /-- MILL_LOAD, R302. -/
  | millLoad (c : Ch) (ends : MillTransfer)
  /-- MILL_SCRUB_CHECK, R305. -/
  | millScrubCheck (c : Ch)
  /-- MILL_PARITY_ERROR, R296. -/
  | millParityError (c : Ch) (b : Fin 64)
  /-- MILL_EVENT_EDGE, R295. -/
  | millEventEdge (c : Ch) (n : Fin 16)
  /-- MILL_CTL_URESET, R298. -/
  | millCtlUreset (c : Ch) (v : Word)
  /-- TAP_LOCK_LOST, R300. -/
  | tapLockLost (c : Ch)
  /-- TAP_SIGDET_CHANGE, R300. -/
  | tapSigdetChange (c : Ch)
  /-- KEG_PORT_NEGOTIATE, R314. -/
  | kegPortNegotiate (c : Ch) (p : Fin 6)
  /-- KEG_NEGOTIATION_DONE, R316. -/
  | kegNegotiationDone (c : Ch) (p : Fin 6) (msg : NegMsg)
  /-- KEG_NEGOTIATION_RETRY, R314. -/
  | kegNegotiationRetry (c : Ch) (p : Fin 6)
  /-- KEG_LANE_ERROR_LIMIT, R316. -/
  | kegLaneErrorLimit (c : Ch) (p : Fin 6) (lane : Fin 5)
  /-- KEG_LANE_LOCK_LOSS, R316. -/
  | kegLaneLockLoss (c : Ch) (p : Fin 6) (lane : Fin 5)
  /-- KEG_PCFG_RENEG, R316. -/
  | kegPcfgReneg (c : Ch) (p : Fin 6)
  /-- KEG_RENEG_REQUEST, R316. -/
  | kegRenegRequest (c : Ch) (p : Fin 6)
  /-- KEG_FRAME_RECEIVE, R318. -/
  | kegFrameReceive (c : Ch) (p : Fin 6) (frame : Frame)
  /-- KEG_FRAME_TRANSMIT, R320. -/
  | kegFrameTransmit (c : Ch) (p : Fin 6)
  /-- ROUTER_PACKET_ARRIVE, R324. -/
  | routerPacketArrive (c : Ch) (p : Fin 6)
  /-- KEG_DOWN_LIMIT_EXPIRE, R328. -/
  | kegDownLimitExpire (c : Ch) (p : Fin 6)
  /-- INBOUND_IMAGE, R165. -/
  | inboundImage (c : Ch)
  /-- MGMT_PACKET, R330. -/
  | mgmtPacket (c : Ch) (out : Option (Half × List Byte))
  /-- TIMEBASE_SYNC, R331. -/
  | timebaseSync (round : Word)
  /-- TIMEBASE_HOLDOVER, R331. -/
  | timebaseHoldover
  /-- TB_COMPARE_FIRE, R425. -/
  | tbCompareFire (c : Ch) (k : Fin 2)
  /-- TB_CMPCTL_ARM, R425. -/
  | tbCmpctlArm (c : Ch) (k : Fin 2)
  /-- TB_CMPCTL_DISARM, R425. -/
  | tbCmpctlDisarm (c : Ch) (k : Fin 2)
  /-- CH_PWR_CTL_DOZE, R417. -/
  | chPwrCtlDoze (c : Ch) (v : Word)
  /-- MOD_PWR_CTL_DOZE_SET, R417. -/
  | modPwrCtlDozeSet (c : Ch)
  /-- MOD_PWR_CTL_DOZE_CLEAR, R418. -/
  | modPwrCtlDozeClear (c : Ch)
  /-- DOZE_ENTRY, R417. -/
  | dozeEntry (c : Ch)
  /-- IDLE_ENTRY, R416. -/
  | idleEntry (c : Ch)
  /-- IDLE_EXIT, R416. -/
  | idleExit (c : Ch)
  /-- AUX_ONLY_WRITE, R420. -/
  | auxOnlyWrite (on : Bool)
  /-- AUX_POWER_VALID, R360. -/
  | auxPowerValid (selfTest : Bool)
  /-- AUX_POWER_REMOVED, R375. -/
  | auxPowerRemoved
  /-- MAIN_POWER_START, R360. -/
  | mainPowerStart
  /-- MAIN_POWER_LOST, R414. -/
  | mainPowerLost
  /-- BOTH_SUPPLIES_LOST, R336. -/
  | bothSuppliesLost
  /-- INPUT_TRIP, R429. -/
  | inputTrip (overcurrent : Bool)
  /-- INPUT_SWITCH_RECLOSE, R429. -/
  | inputSwitchReclose
  /-- CHANNEL_LEAVE_RESET, R360. -/
  | channelLeaveReset (c : Ch) (hbm : HbmTrain) (copies : List (Nat))
  /-- KEG_BYPASS_OPEN, R360. -/
  | kegBypassOpen
  /-- CHANNEL_ENTER_RUN, R360. -/
  | channelEnterRun (c : Ch)
  /-- CHANNEL_RESTART, R421. -/
  | channelRestart (c : Ch)
  /-- PERST_N_ASSERT, R357. -/
  | perstNAssert
  /-- PERST_N_RELEASE, R341. -/
  | perstNRelease (lanes : Vector Half 6) (partner : LinkPartner)
  /-- HOT_RESET, R357. -/
  | hotReset (err : Option (Fin 3))
  /-- LINK_RETRAIN, R341. -/
  | linkRetrain (lanes : Vector Half 6) (partner : LinkPartner) (corrected : BitVec 6)
  /-- FLR_CHANNEL_FUNCTION, R358. -/
  | flrChannelFunction (c : Ch)
  /-- FLR_PF0, R357. -/
  | flrPf0
  /-- PM_STATE_CHANGE, R350. -/
  | pmStateChange (f : Fin 17) (d3 : Bool)
  /-- HOST_CONFIG_REQUEST, R353. -/
  | hostConfigRequest (f : Fin 17) (req : CfgReq)
  /-- HOST_BAR0_REGISTER_READ, R346. -/
  | hostBar0RegisterRead (f : Fin 17) (off : Nat) (count : Nat)
  /-- HOST_BAR0_REGISTER_WRITE, R346. -/
  | hostBar0RegisterWrite (f : Fin 17) (off : Nat) (data : List Dword) (met : List Nat)
  /-- HOST_DMEM_WINDOW_READ, R347. -/
  | hostDmemWindowRead (c : Ch) (off : Nat) (count : Nat)
  /-- HOST_DMEM_WINDOW_WRITE, R347. -/
  | hostDmemWindowWrite (c : Ch) (off : Nat) (data : List (Option Byte)) (clash : List Nat)
  /-- HOST_BAR2_READ, R348. -/
  | hostBar2Read (c : Ch) (addr : Nat) (count : Nat)
  /-- HOST_BAR2_WRITE, R348. -/
  | hostBar2Write (c : Ch) (addr : Nat) (data : List (Option Byte))
  /-- HOST_UNSUPPORTED_REQUEST, R340. -/
  | hostUnsupportedRequest (f : Fin 17)
  /-- HOST_POISONED_WRITE, R354. -/
  | hostPoisonedWrite (f : Fin 17)
  /-- HOST_READ_COMPLETION, R264. -/
  | hostReadCompletion (c : Ch) (tag : Nat) (ans : HostAns) (clash : List Nat)
  /-- HOST_READ_TIMEOUT, R352. -/
  | hostReadTimeout (c : Ch) (tag : Nat)
  /-- MSIX_UNMASK, R351. -/
  | msixUnmask (f : Fin 17) (vec : Nat)
  /-- ERROR_REPORT_ACCEPT, R23. -/
  | errorReportAccept (second : Option (Fin 8))
  /-- CHANNEL_OVERTEMP, R394. -/
  | channelOvertemp (c : Ch) (hot : Bool)
  /-- CHANNEL_PLL_UNLOCK, R394. -/
  | channelPllUnlock (which : BitVec 16)
  /-- PAIRED_COMPARE_TIMEOUT, R404. -/
  | pairedCompareTimeout (c : Ch)
  /-- AVAIL_RECORD_WRITE, R407. -/
  | availRecordWrite (ms : BitVec 64)
  /-- TELEMETRY_THRESHOLD, R351. -/
  | telemetryThreshold (c : Ch) (temp : Word)
  /-- TAMPER_DETECT, R378. -/
  | tamperDetect (src : Fin 5)
  /-- CAP_CTL_ARM, R408. -/
  | capCtlArm (c : Ch)
  /-- CAP_CTL_CANCEL, R408. -/
  | capCtlCancel (c : Ch)
  /-- CAPTURE_EDGE, R408. -/
  | captureEdge (c : Ch)
  /-- EXTEST, R383. -/
  | extest
  /-- SAMPLE_PRELOAD, R383. -/
  | samplePreload
  /-- IDCODE, R383. -/
  | idcode
  /-- INTEST, R383. -/
  | intest
  /-- BYPASS, R383. -/
  | tapBypass
  /-- DAP_CMD, R384. -/
  | dapCmd (w : Word)
  /-- DAP_DATA, R384. -/
  | dapData (w : Word) (valid : Bool)
  /-- DAP_STATUS, R383. -/
  | dapStatus
  /-- PW_UNLOCK, R381. -/
  | pwUnlock
  /-- GET_CHALLENGE, R382. -/
  | getChallenge
  /-- CR_RESPONSE, R382. -/
  | crResponse
  /-- DBG_CLOSE, R385. -/
  | dbgClose
  /-- PROVISION, R385. -/
  | provision
  /-- REG_READ, R385. -/
  | regRead
  /-- REG_WRITE, R385. -/
  | regWrite
  /-- MEM_READ, R386. -/
  | memRead
  /-- FREEZE_RELEASE, R409. -/
  | freezeRelease
  /-- CH_RESET, R385. -/
  | chReset
  /-- BREAK, R385. -/
  | dbgBreak
  /-- STEP, R385. -/
  | dbgStep
  /-- VENDOR_TEST_COMMAND, R385. -/
  | vendorTestCommand
  /-- MCTP_CONTROL, R387. -/
  | mctpControl (eid : Byte)
  /-- PLDM_MONITORING, R387. -/
  | pldmMonitoring (req : PldmReq)
  /-- PLDM_FIRMWARE_UPDATE, R388. -/
  | pldmFirmwareUpdate (dev : Bool) (addr : Nat) (data : List Byte)
  /-- ACTIVATE_FIRMWARE, R388. -/
  | activateFirmware (dev : Bool)
  /-- GET_VERSION, R389. -/
  | getVersion
  /-- GET_CAPABILITIES, R389. -/
  | getCapabilities
  /-- NEGOTIATE_ALGORITHMS, R389. -/
  | negotiateAlgorithms (p384 : Bool) (sha384 : Bool)
  /-- GET_DIGESTS, R389. -/
  | getDigests
  /-- GET_CERTIFICATE, R389. -/
  | getCertificate
  /-- CHALLENGE, R389. -/
  | challenge (nonce : BitVec 256)
  /-- GET_MEASUREMENTS, R389. -/
  | getMeasurements (index : Nat)
  /-- GET_NONCE, R389. -/
  | getNonce
  /-- ENROL, R377. -/
  | enrol (msg : EnrolMsg) (auth : Auth)
  /-- TRANSITION, R376. -/
  | transition (target : Nat) (auth : Auth)
  /-- COMMIT_FLOOR, R372. -/
  | commitFloor (v : Half) (auth : Auth)
  /-- SET_OWNER_FLOOR, R389. -/
  | setOwnerFloor (v : Half) (auth : Auth)
  /-- SET_PASSWORD, R389. -/
  | setPassword (salt : List Byte) (hash : BitVec 384) (auth : Auth)
  /-- SET_SPARGE, R389. -/
  | setSparge (us : Word) (auth : Auth)
  /-- MGMT_YIELD, R106. -/
  | mgmtYield (c : Ch) (auth : Auth)
  /-- RESTART, R363. -/
  | restart (c : Ch) (auth : Auth)
  /-- READ_LOG, R389. -/
  | readLog (first : Word) (count : Nat)
  /-- CONTROLLER_CORE_CHECK, R191. -/
  | controllerCoreCheck (c : Ch)
  /-- MALTSTER_LOCKSTEP_MISMATCH, R394. -/
  | maltsterLockstepMismatch
  /-- HOST_PORT_INTERNAL_ERROR, R394. -/
  | hostPortInternalError
  /-- GUARDED_WRITE_VERIFY, R403. -/
  | guardedWriteVerify (c : Ch) (tun : Fin 64) (bad : List Nat)
  /-- TAP_LOCK, R300. -/
  | tapLock (c : Ch)
  /-- MILL_CLOCK_TREE_EDGE, R297. -/
  | millClockTreeEdge (c : Ch) (tree : Fin 4) (rx : BitVec 64) (errs : Nat) (upsets : List MillUpset)
  /-- MSIX_TABLE_WRITE, R351. -/
  | msixTableWrite (f : Fin 17) (vec : Nat) (cell : Fin 4) (v : Word)
  /-- KEG_PCFG_ENABLE, R314. -/
  | kegPcfgEnable (c : Ch) (p : Fin 6) (on : Bool)
  /-- FLASH_SERVICE_ACCESS, R435. -/
  | flashServiceAccess (dev : Bool) (addr : Nat) (access : FlashAccess)
  /-- LID_SWITCH_LATCH, R380. -/
  | lidSwitchLatch (isOpen : Bool)
  deriving DecidableEq, Repr

end Sys2Proof
end

