-- ==== Sys2Proof/Decode.lean ====
section
/-! DEFINITION. The controller instruction that bytes spell: the instruction format, the primary map, the system page and
the vector page (R203 to R205, R209, R225, R226). The opcode table gives no row any bits, so no word of its numbering
spells a command. -/

namespace Sys2Proof

/-! ### Operand bytes (R203) -/

/-- i8, the first operand byte. -/
def op8 (o : List Byte) : Byte := o.getD 0 0

/-- i16, rel16 or m16, little-endian. -/
def op16 (o : List Byte) : Half := o.getD 1 0 ++ o.getD 0 0

/-- i24, little-endian. -/
def op24 (o : List Byte) : BitVec 24 := o.getD 2 0 ++ o.getD 1 0 ++ o.getD 0 0

/-- The bytes of AM, with the d16 that follows it in mode [An + d] (R203, R204). -/
def amBytes (am : Byte) : Nat := if am.extractLsb' 3 3 = 2 then 3 else 1

/-- The d16 that follows the AM byte in mode [An + d] (R204). -/
def opDisp (o : List Byte) : Half := if amBytes (op8 o) = 3 then op16 (o.drop 1) else 0

/-! ### The maps -/

/-- Rows 0x0 and 0x1 of the primary map (R209, R210): the instruction of a primary byte, and its length. -/
def primaryStack (c : Ch) (b : Nat) (o : List Byte) : Option (Instr × Nat) :=
  match b with
  | 0x00 => some (.nop c 0 0, 1)
  | 0x01 => some (.dup c, 1)
  | 0x02 => some (.drop c, 1)
  | 0x03 => some (.swap c, 1)
  | 0x04 => some (.over c, 1)
  | 0x05 => some (.rot c, 1)
  | 0x06 => some (.nip c, 1)
  | 0x07 => some (.tuck c, 1)
  | 0x08 => some (.twoDup c, 1)
  | 0x09 => some (.twoDrop c, 1)
  | 0x0A => some (.pick c (op8 o), 2)
  | 0x0B => some (.toR c, 1)
  | 0x0C => some (.rFrom c, 1)
  | 0x0D => some (.rFetch c, 1)
  | 0x0E => some (.rdrop c, 1)
  | 0x10 => some (.lit8 c (op8 o), 2)
  | 0x11 => some (.lit16 c (op16 o), 3)
  | 0x12 => some (.lit24 c (op24 o), 4)
  | 0x13 => some (.litu16 c (op16 o), 3)
  | 0x14 => some (.lith c (op16 o), 3)
  | _ => none

/-- Rows 0x2 to 0x4 (R211 to R214). -/
def primaryArith (c : Ch) (b : Nat) (o : List Byte) : Option (Instr × Nat) :=
  match b with
  | 0x20 => some (.add c, 1)
  | 0x21 => some (.adc c, 1)
  | 0x22 => some (.sub c, 1)
  | 0x23 => some (.sbc c, 1)
  | 0x24 => some (.neg c, 1)
  | 0x25 => some (.cmp c, 1)
  | 0x26 => some (.and c, 1)
  | 0x27 => some (.or c, 1)
  | 0x28 => some (.xor c, 1)
  | 0x29 => some (.not c, 1)
  | 0x2A => some (.shl c, 1)
  | 0x2B => some (.shr c, 1)
  | 0x2C => some (.sar c, 1)
  | 0x2D => some (.rol c, 1)
  | 0x2E => some (.ror c, 1)
  | 0x2F => some (.tst c, 1)
  | 0x30 => some (.mul c, 1)
  | 0x31 => some (.mulh c, 1)
  | 0x32 => some (.mulhu c, 1)
  | 0x33 => some (.mulw c, 1)
  | 0x34 => some (.mulwu c, 1)
  | 0x35 => some (.divs c, 1)
  | 0x36 => some (.divu c, 1)
  | 0x37 => some (.min c, 1)
  | 0x38 => some (.max c, 1)
  | 0x39 => some (.minu c, 1)
  | 0x3A => some (.maxu c, 1)
  | 0x3B => some (.abs c, 1)
  | 0x3C => some (.clz c, 1)
  | 0x3D => some (.ctz c, 1)
  | 0x3E => some (.popc c, 1)
  | 0x40 => some (.addi c (op16 o), 3)
  | 0x41 => some (.andi c (op16 o), 3)
  | 0x42 => some (.ori c (op16 o), 3)
  | 0x43 => some (.xori c (op16 o), 3)
  | 0x44 => some (.cmpi c (op16 o), 3)
  | 0x45 => some (.shli c (op8 o), 2)
  | 0x46 => some (.shri c (op8 o), 2)
  | 0x47 => some (.sari c (op8 o), 2)
  | 0x48 => some (.rori c (op8 o), 2)
  | 0x49 => some (.chkb c, 1)
  | 0x4A => some (.chkbu c, 1)
  | _ => none

/-- Rows 0x5 to 0x7 (R215, R216). -/
def primaryMem (c : Ch) (b : Nat) (o : List Byte) : Option (Instr × Nat) :=
  match b with
  | 0x50 => some (.ldB c (op8 o) (opDisp o), 1 + amBytes (op8 o))
  | 0x51 => some (.ldBu c (op8 o) (opDisp o), 1 + amBytes (op8 o))
  | 0x52 => some (.ldH c (op8 o) (opDisp o), 1 + amBytes (op8 o))
  | 0x53 => some (.ldHu c (op8 o) (opDisp o), 1 + amBytes (op8 o))
  | 0x54 => some (.ldW c (op8 o) (opDisp o), 1 + amBytes (op8 o))
  | 0x55 => some (.stB c (op8 o) (opDisp o), 1 + amBytes (op8 o))
  | 0x56 => some (.stH c (op8 o) (opDisp o), 1 + amBytes (op8 o))
  | 0x57 => some (.stW c (op8 o) (opDisp o), 1 + amBytes (op8 o))
  | 0x58 => some (.iread c, 1)
  | 0x59 => some (.ioIn c (op16 o), 3)
  | 0x5A => some (.ins c, 1)
  | 0x5B => some (.ioOut c (op16 o), 3)
  | 0x5C => some (.outs c, 1)
  | _ =>
    if b / 8 = 12 then some (.toA c (Fin.ofNat 8 b), 1)
    else if b / 8 = 13 then some (.aFrom c (Fin.ofNat 8 b), 1)
    else if b / 8 = 14 then some (.adda c (Fin.ofNat 8 b) (op16 o), 3)
    else none

/-- Rows 0x8 and 0x9 (R217, R218). -/
def primaryFlow (c : Ch) (b : Nat) (o : List Byte) : Option (Instr × Nat) :=
  match b with
  | 0x80 => some (.jmp c (op24 o), 4)
  | 0x81 => some (.jmps c, 1)
  | 0x82 => some (.call c (op24 o) (op16 (o.drop 3)), 6)
  | 0x83 => some (.calls c (op16 o), 3)
  | 0x84 => some (.ret c, 1)
  | 0x85 => some (.reti c, 1)
  | 0x86 => some (.brk c, 1)
  | 0x87 => some (.loop c (op16 o), 3)
  | 0x88 => some (.endl c, 1)
  | 0x89 => some (.rep c (op16 o), 3)
  | _ => if b / 16 = 9 then some (.bcc c (BitVec.ofNat 4 b) (op16 o), 3) else none

/-- Rows 0xA and 0xB (R219, R221). -/
def primaryFloat (c : Ch) (b : Nat) (o : List Byte) : Option (Instr × Nat) :=
  match b with
  | 0xA0 => some (.fadd c, 1)
  | 0xA1 => some (.fsub c, 1)
  | 0xA2 => some (.fmul c, 1)
  | 0xA3 => some (.fdiv c, 1)
  | 0xA4 => some (.fsqrt c, 1)
  | 0xA5 => some (.fma c, 1)
  | 0xA6 => some (.fneg c, 1)
  | 0xA7 => some (.fabs c, 1)
  | 0xA8 => some (.fmin c, 1)
  | 0xA9 => some (.fmax c, 1)
  | 0xAA => some (.fcmp c, 1)
  | 0xAB => some (.fcvtSW c, 1)
  | 0xAC => some (.fcvtSWu c, 1)
  | 0xAD => some (.fcvtWS c, 1)
  | 0xAE => some (.fcvtWuS c, 1)
  | 0xB0 => some (.fcvtSH c, 1)
  | 0xB1 => some (.fcvtHS c, 1)
  | 0xB2 => some (.fcvtSBf c, 1)
  | 0xB3 => some (.fcvtBfS c, 1)
  | 0xB4 => some (.permB4 c (op8 o), 2)
  | 0xB5 => some (.permH2 c (op8 o), 2)
  | _ => none

/-- Rows 0xC to 0xE (R221, R222). -/
def primaryShort (c : Ch) (b : Nat) : Option (Instr × Nat) :=
  match b with
  | 0xC0 => some (.addB4 c, 1)
  | 0xC1 => some (.subB4 c, 1)
  | 0xC2 => some (.addsB4 c, 1)
  | 0xC3 => some (.addusB4 c, 1)
  | 0xC4 => some (.subsB4 c, 1)
  | 0xC5 => some (.subusB4 c, 1)
  | 0xC6 => some (.ceqB4 c, 1)
  | 0xC7 => some (.cgtB4 c, 1)
  | 0xC8 => some (.addH2 c, 1)
  | 0xC9 => some (.subH2 c, 1)
  | 0xCA => some (.addsH2 c, 1)
  | 0xCB => some (.addusH2 c, 1)
  | 0xCC => some (.subsH2 c, 1)
  | 0xCD => some (.subusH2 c, 1)
  | 0xCE => some (.ceqH2 c, 1)
  | 0xCF => some (.cgtH2 c, 1)
  | 0xD0 => some (.minsB4 c, 1)
  | 0xD1 => some (.maxsB4 c, 1)
  | 0xD2 => some (.minuB4 c, 1)
  | 0xD3 => some (.maxuB4 c, 1)
  | 0xD4 => some (.mulB4 c, 1)
  | 0xD5 => some (.dotsB4 c, 1)
  | 0xD6 => some (.dotuB4 c, 1)
  | 0xD7 => some (.avguB4 c, 1)
  | 0xD8 => some (.minsH2 c, 1)
  | 0xD9 => some (.maxsH2 c, 1)
  | 0xDA => some (.minuH2 c, 1)
  | 0xDB => some (.maxuH2 c, 1)
  | 0xDC => some (.mulH2 c, 1)
  | 0xDD => some (.dotsH2 c, 1)
  | 0xDE => some (.dotuH2 c, 1)
  | 0xDF => some (.avguH2 c, 1)
  | 0xE0 => some (.aop c, 1)
  | 0xE1 => some (.ared c, 1)
  | 0xE2 => some (.afence c, 1)
  | 0xE3 => some (.rfence c, 1)
  | _ => none

/-- The system page: the instruction of the second byte after 0xFF (R222, R225). -/
def systemPage (c : Ch) (b : Nat) : Option (Instr × Nat) :=
  match b with
  | 0x00 => some (.yield c, 2)
  | 0x01 => some (.resume c, 2)
  | 0x02 => some (.ei c, 2)
  | 0x03 => some (.di c, 2)
  | 0x04 => some (.wfi c, 2)
  | _ => none

/-- The vector page: the instruction of the second byte after 0xFE (R226). -/
def vectorPage (c : Ch) (b : Nat) (o : List Byte) : Option (Instr × Nat) :=
  match b with
  | 0x00 => some (.setvl c, 2)
  | 0x01 => some (.vld c (op8 o) (opDisp o), 2 + amBytes (op8 o))
  | 0x02 => some (.vldff c (op8 o) (opDisp o), 2 + amBytes (op8 o))
  | 0x03 => some (.vst c (op8 o) (opDisp o), 2 + amBytes (op8 o))
  | 0x04 => some (.vsplat c, 2)
  | 0x05 => some (.vextr c, 2)
  | 0x06 => some (.vdup c, 2)
  | 0x07 => some (.vdrop c, 2)
  | 0x08 => some (.vswap c, 2)
  | 0x09 => some (.vover c, 2)
  | 0x10 => some (.vfadd c, 2)
  | 0x11 => some (.vfsub c, 2)
  | 0x12 => some (.vfmul c, 2)
  | 0x13 => some (.vfma c, 2)
  | 0x14 => some (.vfmin c, 2)
  | 0x15 => some (.vfmax c, 2)
  | 0x16 => some (.vfneg c, 2)
  | 0x17 => some (.vfabs c, 2)
  | 0x18 => some (.vfredsum c, 2)
  | 0x19 => some (.vcvtSW c, 2)
  | 0x1A => some (.vcvtWS c, 2)
  | 0x20 => some (.vadd c, 2)
  | 0x21 => some (.vsub c, 2)
  | 0x22 => some (.vmul c, 2)
  | 0x23 => some (.vand c, 2)
  | 0x24 => some (.vor c, 2)
  | 0x25 => some (.vxor c, 2)
  | 0x26 => some (.vredadd c, 2)
  | _ => none

/-! ### Reading an instruction -/

/-- The instruction that six bytes begin with, and its length; none for a reserved encoding (R203, R205, R209). -/
def readInstr (c : Ch) (bs : List Byte) : Option (Instr × Nat) :=
  let b := (bs.getD 0 0).toNat
  let b1 := (bs.getD 1 0).toNat
  let o := bs.drop 1
  if b < 0x20 then primaryStack c b o
  else if b < 0x50 then primaryArith c b o
  else if b < 0x80 then primaryMem c b o
  else if b < 0xA0 then primaryFlow c b o
  else if b < 0xC0 then primaryFloat c b o
  else if b < 0xF0 then primaryShort c b
  else if b = 0xFE then vectorPage c b1 (o.drop 1)
  else if b = 0xFF then systemPage c b1
  else none

/-- The cause of UNDEF for a reserved encoding: PAGE after a page byte, else OPCODE (R205). -/
def reservedCause (b0 : Byte) : Nat := if b0 = 0xFE ∨ b0 = 0xFF then 2 else 1

/-- The bytes of a reserved encoding that are fetched: the primary byte, and the second byte of a page (R203). -/
def reservedLen (b0 : Byte) : Nat := if b0 = 0xFE ∨ b0 = 0xFF then 2 else 1

/-! ### The opcode table's words -/

/-- No row of the opcode table gives bits: no word spells a command. (DESIGN CHOICE, log 4) -/
def decodeTableWord (_nbits _w : Nat) : Option Instr := none

end Sys2Proof
end

