-- ==== Sys2Proof/Config.lean ====
section
/-! DEFINITION. What the spec leaves open: free values (opaque, applied to a counter of the state or to the
operands) and what a silicon part or a key store fixes. -/

namespace Sys2Proof.Config

/-- A fresh sheet, for the destination planes of a transfer that fails, whose contents the spec calls undefined. -/
opaque freeSheet : Nat → Sheet

/-- What an op of a base routine leaves in C (index 0), X (1), T (2) and the scratch planes (their numbers): values that
depend only on the op's inputs and that a program must not rely on (R121, R142). -/
opaque leftSheet : OpInputs → Nat → Sheet

/-- What a base routine has written into a plane (third argument) by a micro-count (second), when it is stopped part-way
and discarded (R109, R110): the spec does not give the order of its writes. (DESIGN CHOICE, log 29) -/
opaque partSheet : OpInputs → Nat → Nat → Sheet

/-- As `partSheet`: whether the code word with the index in the fourth argument has been written by then. -/
opaque partWritten : OpInputs → Nat → Nat → Nat → Bool

/-- What a count word of LSUMF or LSUMX, named by its micro-count, adds to A where a PE's planes hold no product of the
format (R136, R156). (DESIGN CHOICE, log 34) -/
opaque sumPart : OpInputs → Nat → Acc

/-- The global OR that a setup word of LSUMF or LSUMX requests, if it requests one (06, The search). (DESIGN CHOICE, log 34)
-/
opaque sumGor : OpInputs → Nat → Option Bool

/-- As `sumGor`: the status bits that a setup word sets by SFLAG, among those of the data. -/
opaque sumFlags : OpInputs → Nat → BitVec 4

/-- As `sumGor`: which setup word sets LSTEP to +1 by SETPOS, and the position that it sets. -/
opaque sumSetpos : OpInputs → Nat × BitVec 13

/-- A fresh word, for a value that the spec leaves open. -/
opaque freeWord : Nat → Word

/-- A fresh count, for one that the two halves of the lauter tree compute differently (R169). (DESIGN CHOICE, log 34) -/
opaque freeAcc : Nat → Acc

/-- A fresh bit, for a choice that the spec leaves open. -/
opaque freeBit : Nat → Bool

/-- Whether a loop level whose LC is 0, which only a register write can leave, loops when its LE is reached: the spec gives
a count of 0 no meaning. (DESIGN CHOICE, log 17) -/
opaque zeroCount : BitVec 20 → Bool

/-- The sequencer state of an op of Obsum's base microcode part-way through its words (R101): the spec gives the
operation, the footprint and the cost of a base routine, and not its words. First argument the routine number, second
the micro-count. -/
opaque baseUpc : Nat → Nat → BitVec 14

/-- As `baseUpc`, for counter ULC0 to ULC3 (third argument). -/
opaque baseUlc : Nat → Nat → Nat → BitVec 12

/-- As `baseUpc`, for the micro-call stack, newest return address first. -/
opaque baseStack : Nat → Nat → List (BitVec 14)

/-- As `baseUpc`: whether the word leaves plane memory idle (R62). -/
opaque baseIdle : Nat → Nat → Bool

/-- As `baseUpc`, for the steps a plane base PB0 to PB3 has advanced (third argument). -/
opaque basePb : Nat → Nat → Nat → BitVec 13

/-- The carry out of a mill cell that is not in carry mode, which the spec does not state (11, Cell record).
(DESIGN CHOICE, log 56) -/
opaque strayCarry : Nat → Bool

/-- The HBM row of a 32-byte block: the spec maps blocks to pseudo-channels (R283) and not to rows.
(UNVERIFIED, log 15) -/
opaque hbmRow : Nat → Nat

/-! What a silicon part fixes. -/

/-- How the straps ADDR_SEL1 and ADDR_SEL0 of the slot are wired, bits 1 and 0; an open strap is 1 (R434).
(DESIGN CHOICE, log 128) -/
opaque addrSel : BitVec 2

/-- The byte at an offset of a record copy as the Maltster writes it: the spec gives the record area no layout.
(DESIGN CHOICE, log 75) -/
opaque recordByte {α : Type} : α → Nat → Byte

/-- What a record copy holds when bytes are put over it at an offset. (DESIGN CHOICE, log 75) -/
opaque recordWith {α : Type} [Inhabited α] : α → Nat → List Byte → α

/-- The module serial number (R344, R367). (DESIGN CHOICE, log 73) -/
opaque serial : BitVec 64

/-- The silicon revision (R343, R383). (DESIGN CHOICE, log 73) -/
opaque siliconRev : BitVec 4

/-- Obsum's manufacturer identity code in IDCODE (R383). -/
opaque makerCode : BitVec 11

/-- Obsum's Vendor ID (R343). -/
opaque vendorId : Half

/-- The module is an XCP1024-256L-E (R343). -/
opaque extended : Bool

/-- The digest of the Kiln ROM (R389). -/
opaque romDigest : BitVec 384

/-- What the SFDP tables of flash device A or B declare; none without a valid SFDP header (R364, R365). -/
opaque sfdp : Bool → Option Sfdp

/-- The source of R23 that an event of Kiln or the Maltster is logged under, by its code; the spec does not state it.
(DESIGN CHOICE, log 71) -/
opaque eventSource : Byte → BitVec 5

/-! Cryptography, which the spec takes from public standards: SHA-384, ECDSA P-384, AES key wrap, AES-256-GCM, ECDH. -/

/-- SHA-384. (DESIGN CHOICE, log 72) -/
opaque sha384 : List Byte → BitVec 384

/-- ECDSA P-384: the public key with a SHA-384 (first argument) accepts a signature over a message digest.
(DESIGN CHOICE, log 72) -/
opaque sigValid : BitVec 384 → BitVec 384 → List Byte → Bool

/-- AES key unwrap (RFC 3394) of a 256-bit key. -/
opaque keyUnwrap : BitVec 256 → List Byte → Option (BitVec 256)

/-- AES-256-GCM: key, nonce, additional data, ciphertext, tag. -/
opaque gcmOpen : BitVec 256 → List Byte → List Byte → List Byte → List Byte → Option (List Byte)

/-- The microstore payload of a kind 2, 3 or 4 container, whose byte layout the spec does not give.
(DESIGN CHOICE, log 74) -/
opaque microPart : List Byte → Option MicroPart

/-- The owner's sealed material, opened with the attestation key that the device secret gives (R377). -/
opaque openMaterial : BitVec 256 → List Byte → Option OwnerMaterial

/-- The attestation certificate chain of a device secret (R389). -/
opaque certChain : BitVec 256 → List Byte

/-- A signature by the attestation key of a device secret (R389). -/
opaque attestSign : BitVec 256 → List Byte → List Byte

/-- The bytes of an SPDM, PLDM or MCTP answer that its standard fixes, and those of an Obsum command as a signature covers
it, whose layout the spec does not give: by message and operands. (DESIGN CHOICE, log 74) -/
opaque standardAnswer : String → List Nat → List Byte

/-- A fresh random nonce (R382, R389). (DESIGN CHOICE, log 10) -/
opaque nonce : Nat → BitVec 384

/-! Timebase messages (R320, R331): the spec gives no layout of their control flits. -/

/-- The control flit of a timebase message: a question, or an answer with a TIMEBASE. (DESIGN CHOICE, log 63) -/
opaque timebaseFlit : Option (BitVec 64) → BitVec 512

/-- The timebase message of a control flit, if it carries one. (DESIGN CHOICE, log 63) -/
opaque timebaseMsg : BitVec 512 → Option (Option (BitVec 64))

/-! Capture (R386): the word order of the shadow regions 0, 1 and 3 follows a capture map that the spec does not give,
nor does it give the word layout of a Mill cell frame's flip-flops. -/

/-- A shadow word: what was captured, the region and the word offset. (DESIGN CHOICE, log 96) -/
opaque shadowWord {α : Type} : α → Nat → Nat → Word

/-- The words of a shadow region. (DESIGN CHOICE, log 96) -/
opaque shadowSize : Nat → Nat

end Sys2Proof.Config
end

