-- ==== Sys2Proof/Machine/Bits.lean ====
section
/-! DEFINITION. Bit-field, sparse-map and sheet helpers that the meanings share. -/

namespace Sys2Proof.Machine

/-! Sparse maps in one canonical form: keys strictly rising, no entry equal to the default. -/

/-- What a sparse map holds at a key; the default where the key is not listed. -/
def sparseGet {α : Type} (d : α) : List (Nat × α) → Nat → α
  | [], _ => d
  | (k, v) :: t, a => if a = k then v else sparseGet d t a

/-- Write one key, keeping the canonical form: writing the default removes the entry. (DESIGN CHOICE, log 12) -/
def sparseSet {α : Type} [DecidableEq α] (d : α) : List (Nat × α) → Nat → α → List (Nat × α)
  | [], a, x => if x = d then [] else [(a, x)]
  | (k, v) :: t, a, x =>
    if a < k then (if x = d then (k, v) :: t else (a, x) :: (k, v) :: t)
    else if a = k then (if x = d then t else (a, x) :: t)
    else (k, v) :: sparseSet d t a x

/-- The canonical form of a sparse map whose keys are all at or above `lo`. -/
def sparseWfFrom {α : Type} [DecidableEq α] (d : α) : Nat → List (Nat × α) → Bool
  | _, [] => true
  | lo, (k, v) :: t => decide (lo ≤ k) && decide (v ≠ d) && sparseWfFrom d (k + 1) t

/-- The canonical form of a sparse map. (DESIGN CHOICE, log 12) -/
def sparseWf {α : Type} [DecidableEq α] (d : α) (m : List (Nat × α)) : Bool := sparseWfFrom d 0 m

/-! Byte memories: an unlisted byte reads 0. -/

/-- One byte of a memory. (DESIGN CHOICE, log 11) -/
def memByte (m : List (Nat × Byte)) (a : Nat) : Byte := sparseGet 0#8 m a

/-- Store one byte. -/
def memSetByte (m : List (Nat × Byte)) (a : Nat) (x : Byte) : List (Nat × Byte) := sparseSet 0#8 m a x

/-- A little-endian half-word (R6). -/
def memHalf (m : List (Nat × Byte)) (a : Nat) : Half := memByte m (a + 1) ++ memByte m a

/-- A little-endian word (R6). -/
def memWord (m : List (Nat × Byte)) (a : Nat) : Word :=
  memByte m (a + 3) ++ memByte m (a + 2) ++ memByte m (a + 1) ++ memByte m a

/-- Store a little-endian half-word (R6). -/
def memSetHalf (m : List (Nat × Byte)) (a : Nat) (x : Half) : List (Nat × Byte) :=
  memSetByte (memSetByte m a (x.extractLsb' 0 8)) (a + 1) (x.extractLsb' 8 8)

/-- Store a little-endian word (R6). -/
def memSetWord (m : List (Nat × Byte)) (a : Nat) (x : Word) : List (Nat × Byte) :=
  memSetHalf (memSetHalf m a (x.extractLsb' 0 16)) (a + 2) (x.extractLsb' 16 16)

/-- Store consecutive bytes from an address upward. -/
def memSetBytes (m : List (Nat × Byte)) (a : Nat) : List Byte → List (Nat × Byte)
  | [] => m
  | b :: t => memSetBytes (memSetByte m a b) (a + 1) t

/-- Read `n` consecutive bytes from an address upward. -/
def memBytes (m : List (Nat × Byte)) (a : Nat) : Nat → List Byte
  | 0 => []
  | n + 1 => memByte m a :: memBytes m (a + 1) n

/-- The little-endian value of a byte list. -/
def bytesNat : List Byte → Nat
  | [] => 0
  | b :: t => b.toNat + 256 * bytesNat t

/-- The low `n` bytes of a number, least significant first. -/
def natBytes : Nat → Nat → List Byte
  | 0, _ => []
  | n + 1, x => BitVec.ofNat 8 x :: natBytes n (x / 256)

/-- A field of a word: `w` bits from bit `lo`. -/
def fld {n : Nat} (x : BitVec n) (lo w : Nat) : Nat := (x.extractLsb' lo w).toNat

/-- One bit of a word as a Bool. -/
def bit {n : Nat} (x : BitVec n) (i : Nat) : Bool := x.getLsbD i

/-- A Bool as a number. -/
def b2n (b : Bool) : Nat := if b then 1 else 0

/-- A Bool as one bit of a 32-bit word at a position. -/
def bitAt (b : Bool) (i : Nat) : Word := if b then BitVec.ofNat 32 (2 ^ i) else 0#32

/-- A number as a field of a 32-bit word at a position. -/
def fldAt (v i : Nat) : Word := BitVec.ofNat 32 (v <<< i)

/-! Sheets. -/

/-- The linear index of PE (row, col) (R11). -/
def peIndex (row col : Nat) : Nat := row * 1024 + col

/-- A sheet from a predicate on linear PE indexes. -/
def sheetOf (f : Nat → Bool) : Sheet := BitVec.ofFnLE (n := 1048576) (fun i => f i.val)

/-- The bit of PE (row, col). -/
def sheetAt (s : Sheet) (row col : Nat) : Bool := s.getLsbD (peIndex row col)

/-- The sheet that is `b` in every PE. -/
def sheetConst (b : Bool) : Sheet := if b then BitVec.allOnes 1048576 else 0#1048576

/-- How many bits of the low `2 ^ k` bits of a number are 1. -/
def popNat : Nat → Nat → Nat
  | 0, x => x % 2
  | k + 1, x =>
    if x = 0 then 0 else popNat k (x % 2 ^ 2 ^ k) + popNat k (x / 2 ^ 2 ^ k)

/-- The population count of a sheet, 0 to 1,048,576 (R151). -/
def sheetPop (s : Sheet) : Nat := popNat 20 s.toNat

/-- The value that planes `b` to `b + w - 1` hold in PE `i`, plane `b` least significant (R115). -/
def planeField (plane : Nat → Sheet) (b : Nat) (i : Nat) : Nat → Nat
  | 0 => 0
  | w + 1 => planeField plane b i w + (if (plane (b + w)).getLsbD i then 2 ^ w else 0)

/-- Sixteen-bit two's-complement style reading: the signed value of the low `w` bits of `x`. -/
def sval (w x : Nat) : Int :=
  if 2 * (x % 2 ^ w) ≥ 2 ^ w then (x % 2 ^ w : Nat) - (2 ^ w : Nat) else (x % 2 ^ w : Nat)

/-- The low `w` bits of an integer. -/
def uval (w : Nat) (x : Int) : Nat := (x % (2 ^ w : Nat)).toNat

/-- Saturate an integer to the range `lo` to `hi`. -/
def clampInt (lo hi x : Int) : Int := if x < lo then lo else if hi < x then hi else x

/-- Remove the element of a list at an index. -/
def listDrop {α : Type} : List α → Nat → List α
  | [], _ => []
  | _ :: t, 0 => t
  | x :: t, n + 1 => x :: listDrop t n

end Sys2Proof.Machine
end

