-- ==== Sys2Proof/Machine/StateMill.lean ====
section
/-! DEFINITION. The Mill of one channel: its image, its fabric and its tap lanes (11_mill_format_fabric.md). -/

namespace Sys2Proof.Machine

/-- The states of MILL_STAT.STATE. -/
inductive MillState where
  | none | loading | failed | run | halted
  deriving DecidableEq, Repr

/-- A mill image after its load (Mill images): the global section, the cell records by `512 * column + row`, and the
block RAM words it holds by `1024 * ram + word`. Absent cells and words are zero. -/
structure MillImage where
  id    : Word
  clk   : Vector Word 4
  rate  : Word
  ramCfg : Vector Byte 64
  fmts  : Vector (BitVec 128) 16
  cells : List (Nat × BitVec 256)
  ram   : List (Nat × Word)
  deriving DecidableEq, Repr

/-- An element in the lane pipeline of an engine: its engine, lane and index, and the tree-0 cycles until its result. -/
structure Flight where
  engine : Nat
  lane   : Nat
  elem   : Nat
  left   : Nat
  deriving DecidableEq, Repr

/-- The elements of an FMT 1 transfer, or of one inbound packet, at the corner-turn engines (R290, R292): the transfer's
staging key and first element, the direction and format of its ports, for each engine the elements not yet presented, with
their values, those in flight, and the results so far, 32 bytes an element. -/
structure MillJob where
  key    : Nat
  lo     : Nat
  out    : Bool
  fmt    : Nat
  width  : Nat
  esize  : Nat
  todo   : Vector (List (Nat × Nat)) 4
  flight : List Flight
  words  : Nat
  deriving DecidableEq, Repr

/-- The Mill. `jobs` are the transfers at its engines, in the order in which they came (R292). `loaded` is the image as it
was loaded; `image` and `cfg` are its global section and its cell records as they stand, which an upset may take away from
it. `ram` holds 36-bit words, `ramOut` the word each block RAM last read; `events` the last sampled EVENT0 to EVENT15; `rx`
the receive parallel word and `tx` the transmit one, none in electrical idle; `prbs` the state of the PRBS31 generator, 0
before it has sent; `scrubAt` the next frame that the scrub reads, and `checks` the frame checks passed since the Mill
entered RUN. -/
structure Mill where
  state     : MillState
  scrubErr  : Bool
  parityErr : Bool
  failcode  : BitVec 4
  ureset    : Bool
  loaded    : Option MillImage
  image     : Option MillImage
  cfg       : List (Nat × BitVec 256)
  ffs       : BitVec 32768
  ram       : List (Nat × BitVec 36)
  ramOut    : Vector Word 64
  ureg      : Vector Word 16
  events    : BitVec 16
  tapCtl    : BitVec 7
  sigdet    : Bool
  lock      : Bool
  lockLost  : Bool
  sigdetChg : Bool
  prbsErr   : Half
  rx        : BitVec 64
  tx        : Option (BitVec 64)
  prbs      : BitVec 31
  scrub     : Word
  scrubAt   : Nat
  checks    : Nat
  jobs      : List MillJob
  deriving DecidableEq, Repr

end Sys2Proof.Machine
end

