-- ==== Sys2Proof/Machine/MillFabric.lean ====
section
/-! DEFINITION. The Mill's fabric: cells, routing, boundary ports, block RAMs, clock-tree edges, and the lane pipelines of
the corner-turn engines (R290, R292, R294 to R298). -/

namespace Sys2Proof.Machine

/-- A cell's index from its column and row. -/
def cellIx (col row : Nat) : Nat := 512 * col + row

/-- A cell's record. -/
def cellRec (cfg : List (Nat × BitVec 256)) (k : Nat) : BitVec 256 := sparseGet 0 cfg k

/-- The lowest set bit of a 16-bit select (R294). -/
def lowBit (sel : Nat) : Option Nat := (List.range 16).find? fun i => decide (sel / 2 ^ i % 2 = 1)

/-- What the fabric computes: a cell's output, its combinational output, its carry in and out, an input multiplexer
(0 to 5 I0 to I5, 6 CE, 7 DX). -/
inductive FabQ where
  | out (k : Nat)
  | comb (k : Nat)
  | cin (k : Nat)
  | cout (k : Nat)
  | input (k j : Nat)
  deriving DecidableEq, Repr

/-- The cell that drives a long line: of a row, the lowest column whose DRIVE names it; of a column, the lowest row
(R294). -/
def lineDriver (cfg : List (Nat × BitVec 256)) (k line : Nat) : Option Nat :=
  let cells := if line < 2 then (List.range 64).map fun c => cellIx c (k % 512)
    else (List.range 512).map fun r => cellIx (k / 512) r
  cells.find? fun i => bit (cellRec cfg i) (200 + line)

/-- The cell at a distance north, east, south or west (0 to 3) of a cell, if it lies in the fabric. -/
def neighbour (k dir d : Nat) : Option Nat :=
  let c := k / 512
  let r := k % 512
  match dir with
  | 0 => if d ≤ r then some (cellIx c (r - d)) else none
  | 1 => if c + d < 64 then some (cellIx (c + d) r) else none
  | 2 => if r + d < 512 then some (cellIx c (r + d)) else none
  | _ => if d ≤ c then some (cellIx (c - d) r) else none

/-- Where a multiplexer source comes from. -/
inductive FabSrc where
  | cell (k : Option Nat)
  | const (b : Bool)
  | boundary
  | ff
  deriving DecidableEq, Repr

/-- Source `i` of an input multiplexer of a cell (11, Cells and routing). -/
def fabSource (cfg : List (Nat × BitVec 256)) (k i : Nat) : FabSrc :=
  if i = 0 then .cell (some k)
  else if i < 5 then .cell (neighbour k (i - 1) 1)
  else if i < 9 then .cell (neighbour k (i - 5) 8)
  else if i < 13 then .cell (lineDriver cfg k (i - 9))
  else if i = 13 then .boundary
  else if i = 14 then .const true
  else .ff

/-- The select of an input multiplexer. -/
def imux (r : BitVec 256) (j : Nat) : Nat := fld r (64 + 16 * j) 16

/-- The value of a fabric signal, by fuel over the depth of the combinational path. An accepted image has no
combinational loop (R301); one that an upset makes runs out of fuel and reads 0. The carry out of a cell that is not in
carry mode is not stated by the spec. (DESIGN CHOICE, log 56) -/
def fabEval (cfg : List (Nat × BitVec 256)) (ffs : BitVec 32768) (src : Nat → Bool) : Nat → FabQ → Bool
  | 0, _ => false
  | n + 1, .out k => if bit (cellRec cfg k) 199 then ffs.getLsbD k else fabEval cfg ffs src n (.comb k)
  | n + 1, .comb k =>
    let r := cellRec cfg k
    let ix := fun (m : Nat) => (List.range m).foldl (fun acc j => acc + b2n (fabEval cfg ffs src n (.input k j)) * 2 ^ j) 0
    if bit r 198 then (bit r (ix 5)) != fabEval cfg ffs src n (.cin k) else bit r (ix 6)
  | n + 1, .cin k => if k % 512 = 0 then false else fabEval cfg ffs src n (.cout (k - 1))
  | n + 1, .cout k =>
    let r := cellRec cfg k
    let ix := (List.range 5).foldl (fun acc j => acc + b2n (fabEval cfg ffs src n (.input k j)) * 2 ^ j) 0
    if bit r 198 then (if bit r ix then fabEval cfg ffs src n (.cin k) else bit r (32 + ix)) else Config.strayCarry k
  | n + 1, .input k j =>
    match lowBit (imux (cellRec cfg k) j) with
    | none => false
    | some i =>
      match fabSource cfg k i with
      | .cell none => false
      | .cell (some k') => fabEval cfg ffs src n (.out k')
      | .const b => b
      | .boundary => src k
      | .ff => ffs.getLsbD k

/-- Fuel for the deepest path. -/
def fabFuel : Nat := 262144

/-! ### Boundary ports -/

/-- The lane inputs of a cycle: the 294 bits of the ports of an engine's lane, DATA in bits 255 to 0 (R290). -/
abbrev LaneIn := Nat → Nat → BitVec 294

/-- The receive parallel word as the fabric sees it (R300). -/
def tapRx (m : Mill) : BitVec 64 := if bit m.tapCtl 1 ∧ m.lock = true then m.rx else 0

/-- The boundary source bit of a cell (11, Element lanes and Other boundary ports). -/
def boundarySrc (m : Mill) (lanes : LaneIn) (k : Nat) : Bool :=
  let c := k / 512
  let r := k % 512
  if r < 294 then decide (c % 2 = 0) && (lanes (c / 16) (c % 16 / 2)).getLsbD r
  else if 320 ≤ r ∧ r < 352 ∧ c < 16 then (m.ureg.toList.getD c 0).getLsbD (r - 320)
  else if 352 ≤ r ∧ r < 416 ∧ c = 62 then (tapRx m).getLsbD (r - 352)
  else if 480 ≤ r then (m.ramOut.toList.getD c 0).getLsbD (r - 480)
  else false

/-- A fabric signal of a Mill. -/
def millSig (m : Mill) (lanes : LaneIn) (q : FabQ) : Bool := fabEval m.cfg m.ffs (boundarySrc m lanes) fabFuel q

/-- The boundary driver of a cell: its output when BDRV is 1. -/
def driver (m : Mill) (lanes : LaneIn) (k : Nat) : Bool :=
  bit (cellRec m.cfg k) 204 && millSig m lanes (.out k)

/-- `n` driver bits of a column from a row upward. -/
def driverWord (m : Mill) (lanes : LaneIn) (col row n : Nat) : Nat :=
  (List.range n).foldl (fun acc b => acc + b2n (driver m lanes (cellIx col (row + b))) * 2 ^ b) 0

/-! ### Outside RUN (R298, R303) -/

/-- Bit `k` of the flip-flops. -/
def ffBit (b : Bool) (k : Nat) : BitVec 32768 := if b then 1#32768 <<< k else 0

/-- Every flip-flop at its RVAL. -/
def millRvals (m : Mill) : BitVec 32768 := m.cfg.foldl (fun acc p => acc ||| ffBit (bit p.2 195) p.1) 0

/-- The fabric outside RUN: both reset trees hold the flip-flops, every boundary driver is 0, and the tap transmitter is in
electrical idle. -/
def millHeld (m : Mill) : Mill := { m with ffs := millRvals m, events := 0, tx := none }

/-! ### Clock-tree edges -/

/-- The reset tree of a cell is asserted while the Mill runs (R298). -/
def userReset (m : Mill) (r : BitVec 256) : Bool := bit r 194 && m.ureset

/-- The flip-flop of a cell after an edge of a clock tree. -/
def nextFf (m : Mill) (lanes : LaneIn) (tree k : Nat) : Bool :=
  let r := cellRec m.cfg k
  if userReset m r then bit r 195
  else if fld r 192 2 ≠ tree then m.ffs.getLsbD k
  else if bit r 197 && !millSig m lanes (.input k 6) then m.ffs.getLsbD k
  else if bit r 196 then millSig m lanes (.input k 7)
  else millSig m lanes (.comb k)

/-- The flip-flops after an edge. A cell without a record has a combinational output of 0 and tree 0. -/
def edgeFfs (m : Mill) (lanes : LaneIn) (tree : Nat) : BitVec 32768 :=
  let kept := m.cfg.foldl (fun acc p => acc &&& ~~~(ffBit true p.1)) (if tree = 0 then 0 else m.ffs)
  m.cfg.foldl (fun acc p => acc ||| ffBit (nextFf m lanes tree p.1) p.1) kept

/-- A block RAM word with its byte parity (R296; DESIGN CHOICE: even parity). (DEDUCED, log 55) -/
def withParity (w : Word) : BitVec 36 :=
  let p := fun (b : Nat) => b2n (decide (popNat 3 (fld w (8 * b) 8) % 2 = 1)) * 2 ^ b
  BitVec.ofNat 36 (w.toNat + (p 0 + p 1 + p 2 + p 3) * 2 ^ 32)

/-- The block RAM's byte in the image's configuration. -/
def ramCfgOf (m : Mill) (b : Nat) : Byte :=
  match m.image with
  | some i => i.ramCfg.toList.getD b 0
  | none => 0

/-- The block RAMs that an edge of a tree clocks. -/
def ramsOf (m : Mill) (tree : Nat) : List Nat :=
  (List.range 64).filter fun b => bit (ramCfgOf m b) 2 && decide (fld (ramCfgOf m b) 0 2 = tree)

/-- The word that a block RAM's port addresses. -/
def ramAddr (m : Mill) (lanes : LaneIn) (b : Nat) : Nat := 1024 * b + driverWord m lanes b 464 10

/-- A block RAM that an edge of a tree clocks reads a word whose parity does not match (R296, R306). -/
def parityBad (m : Mill) (lanes : LaneIn) (tree : Nat) : Bool :=
  (ramsOf m tree).any fun b =>
    let w := sparseGet 0 m.ram (ramAddr m lanes b)
    decide (withParity (w.setWidth 32) ≠ w)

/-- One block RAM at an edge: the addressed word is read, the old one when it is also written (R296). -/
def ramEdge (m : Mill) (lanes : LaneIn) (acc : Mill) (b : Nat) : Mill :=
  let a := ramAddr m lanes b
  let old := sparseGet 0 m.ram a
  let acc := { acc with ramOut := Vector.ofFn fun i : Fin 64 => if i.val = b then old.setWidth 32 else acc.ramOut[i] }
  if driver m lanes (cellIx b 506) then
    { acc with ram := sparseSet 0 acc.ram a (withParity (BitVec.ofNat 32 (driverWord m lanes b 474 32))) }
  else acc

/-- EVENT ports whose driving cell is on a clock tree. -/
def eventsOf (m : Mill) (tree : Nat) : List Nat :=
  (List.range 16).filter fun n => decide (fld (cellRec m.cfg (cellIx n 352)) 192 2 = tree)

/-- Sample EVENT ports: the new samples, and those that rose (R295). -/
def sampleEvents (m : Mill) (lanes : LaneIn) (ns : List Nat) : Mill × List Nat :=
  let now := fun (n : Nat) => driver m lanes (cellIx n 352)
  let up := ns.filter fun n => now n && !m.events.getLsbD n
  ({ m with events := ns.foldl (fun acc n =>
      if now n then acc ||| BitVec.ofNat 16 (2 ^ n) else acc &&& ~~~(BitVec.ofNat 16 (2 ^ n))) m.events }, up)

/-- One edge of a clock tree, with the EVENT ports that rose after it. -/
def treeEdge (m : Mill) (lanes : LaneIn) (tree : Nat) : Mill × List Nat :=
  let ffs := edgeFfs m lanes tree
  let m := (ramsOf m tree).foldl (ramEdge m lanes) m
  let m := { m with ffs := ffs }
  sampleEvents m lanes (eventsOf m tree)

/-! ### Elements of an FMT 1 transfer -/

/-- A format table entry. -/
def fmtEntry (m : Mill) (f : Nat) : BitVec 128 :=
  match m.image with
  | some i => i.fmts.toList.getD f 0
  | none => 0

def fmtValid (e : BitVec 128) : Bool := bit e 0
def fmtDirs (e : BitVec 128) : Nat := fld e 1 2
def fmtLanes (e : BitVec 128) : Nat := 2 ^ fld e 4 2
def fmtLat (e : BitVec 128) : Nat := fld e 8 8
def fmtWmin (e : BitVec 128) : Nat := fld e 32 9
def fmtWmax (e : BitVec 128) : Nat := fld e 48 9
def fmtEsizes (e : BitVec 128) : Nat := fld e 64 6

/-- The Mill accepts a format for a direction, a width and an element size code (R291). -/
def fmtAccepts (m : Mill) (f : Nat) (out : Bool) (width esize : Nat) : Bool :=
  let e := fmtEntry m f
  decide (m.state = .run) && fmtValid e && decide (fmtDirs e / (if out then 2 else 1) % 2 = 1)
    && decide (fmtWmin e ≤ width ∧ width ≤ fmtWmax e) && decide (fmtEsizes e / 2 ^ esize % 2 = 1)

/-- The ports of a lane that carries an element. -/
def laneWord (f : Nat) (out : Bool) (width esize index value : Nat) : BitVec 294 :=
  BitVec.ofNat 294 (value % 2 ^ 256 + index % 2 ^ 20 * 2 ^ 256 + 2 ^ 276 + f * 2 ^ 277 + b2n out * 2 ^ 281
    + width * 2 ^ 282 + esize * 2 ^ 291)

/-- The elements of an engine, in ascending index: those of its 64-column groups (R288). (DESIGN CHOICE, log 53) -/
def engineElems (k groups : Nat) (xs : List (Nat × Nat)) : List (Nat × Nat) :=
  xs.filter fun p => decide (p.1 / 64 % groups % 4 = k)

/-- The elements of a transfer come to the engines, with `groups` 64-column groups in its rectangle. -/
def newJob (key lo : Nat) (out : Bool) (f width esize groups : Nat) (xs : List (Nat × Nat)) : MillJob where
  key := key
  lo := lo
  out := out
  fmt := f
  width := width
  esize := esize
  todo := Vector.ofFn fun k : Fin 4 => engineElems k.val groups xs
  flight := []
  words := 0

/-- The elements of a job that an engine has not presented. -/
def jobTodo (j : MillJob) (k : Nat) : List (Nat × Nat) := j.todo.toList.getD k []

/-- An engine has not finished with a job. -/
def jobOn (j : MillJob) (k : Nat) : Bool := decide (jobTodo j k ≠ []) || j.flight.any fun x => decide (x.engine = k)

/-- The job that an engine serves: the oldest that it has not finished with (R292). -/
def servedBy (m : Mill) (k : Nat) : Option MillJob := m.jobs.find? fun j => jobOn j k

/-- The element on a lane in this cycle of tree 0 (R290). -/
def laneElem (m : Mill) (k l : Nat) : Option (MillJob × Nat × Nat) :=
  match servedBy m k with
  | none => none
  | some j =>
    if l < fmtLanes (fmtEntry m j.fmt) then ((jobTodo j k).drop l).head?.map fun x => (j, x.1, x.2) else none

/-- The lane ports in this cycle of tree 0 (R290). -/
def lanesNow (m : Mill) : LaneIn := fun k l =>
  match laneElem m k l with
  | some (j, e, v) => laneWord j.fmt j.out j.width j.esize e v
  | none => 0

/-- The elements that an engine takes from a job at an edge of tree 0: one on each lane of the format, when the engine serves
the job. -/
def taken (m : Mill) (j : MillJob) (k : Nat) : Nat :=
  if servedBy m k = some j then min (fmtLanes (fmtEntry m j.fmt)) (jobTodo j k).length else 0

/-- A job's elements in flight with those that are presented in this cycle. -/
def inFlight (m : Mill) (j : MillJob) : List Flight :=
  j.flight ++ (List.range 4).flatMap fun k => ((jobTodo j k).take (taken m j k)).zipIdx.map fun x =>
    { engine := k, lane := x.2, elem := x.1.1, left := fmtLat (fmtEntry m j.fmt) }

/-- The result that a lane returns in this cycle. -/
def laneResult (m : Mill) (k l : Nat) : Nat := driverWord m (lanesNow m) (16 * k + 2 * l + 1) 0 256

/-- A job after an edge of tree 0: results come exactly LAT cycles after their elements, and the next elements follow
(R290). -/
def stepJob (m : Mill) (j : MillJob) : MillJob :=
  let all := inFlight m j
  { j with
    todo := Vector.ofFn fun k : Fin 4 => (jobTodo j k.val).drop (taken m j k.val)
    flight := (all.filter fun x => decide (x.left ≠ 0)).map fun x => { x with left := x.left - 1 }
    words := (all.filter fun x => decide (x.left = 0)).foldl (fun acc x =>
      acc ||| laneResult m x.engine x.lane * 2 ^ (256 * x.elem)) j.words }

/-- The lane pipelines at an edge of tree 0. -/
def stepLanes (m : Mill) (tree : Nat) : List MillJob := if tree = 0 then m.jobs.map (stepJob m) else m.jobs

/-- Every result of a job has come. -/
def jobDone (j : MillJob) : Bool := (List.range 4).all fun k => !jobOn j k

end Sys2Proof.Machine
end

