-- ==== Sys2Proof/Machine/StateArray.lean ====
section
/-! DEFINITION. The array side of one channel's state: PEs, planes, edges, sequencers, traps, formats, lauter. -/

namespace Sys2Proof.Machine

/-- The classes of R392, with EVENT for logged events that are not errors. -/
inductive ErrClass where
  | ce | ucc | fatal | event
  deriving DecidableEq, Repr

/-- A report waiting at an event and error bus source (R24), with the fields of a log entry (R401).
`fence` says that the report carries a fence, which the Maltster announces when it accepts it (R396). -/
structure Report where
  cls    : ErrClass
  code   : Byte
  unit   : Byte
  detail : Word
  fence  : Bool
  deriving DecidableEq, Repr

/-- A source's report queue and dropped-CE counter (R24). -/
structure Source where
  queue   : List Report
  waiting : List Report
  dropped : Nat
  deriving DecidableEq, Repr

/-- A damaged 72-bit plane code word (R54): plane, code word `row * 16 + j`, uncorrectable or single-bit. -/
structure PlaneMark where
  plane : Nat
  word  : Nat
  ue    : Bool
  deriving DecidableEq, Repr

/-- One edge of the channel: its buffer, head slot first (R43), and the slots sent and not yet retired (R46). -/
structure Edge where
  buf         : List Slot
  outstanding : Nat
  deriving DecidableEq, Repr

/-- A part of a plane that one tun has yet to write, or to read for an outbound transfer (R62): the logical tun, the
plane, the bits (bit `128 * row + column` of the tun) and which of them belong to the transfer. `done` says that an
outbound part has been read, and `tag` names the transfer that it belongs to. -/
structure Staged where
  tun   : Nat
  plane : Nat
  out   : Bool
  done  : Bool
  data  : BitVec 16384
  mask  : BitVec 16384
  tag   : Nat
  deriving DecidableEq, Repr

/-- PEs, planes and channel edges (02_tuns_pes_and_planes.md). `spareBad` names the tun rows whose spare, in position 8,
was itself found bad; `verify` holds the written planes that GUARDED mode has not read back, as 4,096 · tun + plane.
(DESIGN CHOICE, log 39) -/
structure Arr where
  c          : Sheet
  m          : Sheet
  x          : Sheet
  t          : Sheet
  planes     : List (Nat × Sheet)
  marks      : List PlaneMark
  writeback  : List (Nat × Nat)
  planeCe    : Word
  edgeCtl    : BitVec 12
  edges      : Vector Edge 4
  stall      : Bool
  short      : Bool
  stallLimit : Word
  tunMap     : Vector (BitVec 4) 8
  spareBad   : BitVec 8
  spareCols  : Vector Nat 72
  staging    : List Staged
  verify     : List Nat
  deriving DecidableEq, Repr

/-- The sequencer state of one op (R70, save block of R101). `stack` has the newest return address first. -/
structure OpCtx where
  word   : Quad
  step   : BitVec 64
  ucount : BitVec 64
  upc    : BitVec 14
  stack  : List (BitVec 14)
  ulc    : Vector (BitVec 12) 4
  pb     : Vector (BitVec 13) 4
  descA  : Word
  descB  : Word
  gorAge : Nat
  gorVal : Bool
  gorReq : Bool
  cntAge : Nat
  cntReq : Bool
  seed   : BitVec 64
  drawN  : BitVec 64
  deriving DecidableEq, Repr

/-- A YIELD request accepted and not yet at its boundary (R106, R448): who asked, and the micro-cycles since. -/
structure YieldReq where
  ctl    : Bool
  mgmt   : Bool
  cycles : Nat
  deriving DecidableEq, Repr

/-- A mid-op stop whose drain of R100 has not ended. `quiet` says that no ARRAY is raised (R106). -/
structure Drain where
  cause  : Byte
  sub    : BitVec 2
  ffield : BitVec 2
  quiet  : Bool
  nosave : Bool
  yield  : Bool
  deriving DecidableEq, Repr

/-- A damaged word of one sequencer's microstore copy (R83): the tun, the address (16,384 and above for
routine table entries), and which of its 128 bits have flipped (R444). -/
structure UstoreMark where
  tun   : Nat
  addr  : Nat
  flips : Quad
  deriving DecidableEq, Repr

/-- Micro-trap state (04_micro_traps_and_preemption.md). -/
structure Trap where
  state     : BitVec 2
  cause     : Byte
  sub       : BitVec 2
  ffield    : BitVec 2
  nosave    : Bool
  mgmt      : Bool
  repairSet : Bool
  ystat     : BitVec 2
  rstat     : BitVec 2
  save      : Vector Word 20
  save2     : Vector Word 20
  saveSeed  : BitVec 64
  saveDraw  : BitVec 64
  holds     : Vector (BitVec 26) 4
  drain     : Option Drain
  yreq      : Option YieldReq
  deriving DecidableEq, Repr

/-- Tun sequencers, array queue and microstore (03_tun_sequencers_and_microstore.md). `planeIdle` says that the last
micro-cycle of the running op left plane memory idle, and `idleUsed` names the logical tuns that have used it (R62). -/
structure Seq where
  queue      : List Quad
  stop       : Bool
  issueCause : BitVec 20
  stepcount  : BitVec 64
  stepLatch  : Word
  cur        : Option OpCtx
  resumed    : Bool
  waiting    : Bool
  ustore     : List (Nat × Quad)
  rtab       : List (Nat × Quad)
  ustoreId   : Word
  ustoreCe   : Word
  umarks     : List UstoreMark
  badSig     : BitVec 64
  planeIdle  : Bool
  idleUsed   : BitVec 64
  deriving DecidableEq, Repr

/-- A split 64-bit register with its held low half and its R94 latch (R94, R150). -/
structure Split where
  value : BitVec 64
  held  : Option Word
  latch : Word
  deriving DecidableEq, Repr

/-- Format descriptors, rounding and flag registers (05_grist_formats_and_arithmetic.md). -/
structure Fmt where
  gfdA   : Vector Word 16
  gfdB   : Vector Word 16
  seed   : Split
  epoch  : Split
  flags  : BitVec 6
  origin : Half
  deriving DecidableEq, Repr

/-- A root effect in flight (R154, R155). -/
inductive RootOp where
  | count (addend : Acc)
  | clear
  | sflag (f : BitVec 4)
  | snap (lpos : BitVec 13) (lstep : BitVec 2)
  | load
  | merge
  | xsend (lpos : BitVec 13) (lstep : BitVec 2)
  | round (usesDesc : Bool) (descA descB : Word) (seed drawN : BitVec 64)
  deriving DecidableEq, Repr

/-- A root effect with the RTAG of the op that requested it (R161) and the micro-cycles since its word, held at 36
(R155). -/
structure RootReq where
  tag : BitVec 6
  op  : RootOp
  age : Nat
  deriving DecidableEq, Repr

/-- A global OR on its way to the controller: the RTAG of its op, its value, and the micro-cycles since the request, held
at 24 (R20, R77). -/
structure GorReq where
  tag : BitVec 6
  val : Bool
  age : Nat
  deriving DecidableEq, Repr

/-- The lauter tree root (06_lauter_tree_and_exact_reduction.md). Status bits are NAN, SNAN, PINF, NINF, POISON
in bits 0 to 4. `shown` are the results of SNAP and ROUND on their way to the controller: the RTAG of the op and the
micro-cycles left (R161). -/
structure Lau where
  la       : Acc
  stat     : BitVec 5
  lpos     : BitVec 13
  lstep    : BitVec 2
  bank     : Acc
  bankStat : BitVec 5
  rxCount  : Half
  snap     : LauImage
  events   : BitVec 3
  gor      : BitVec 64
  gors     : List GorReq
  roots    : List RootReq
  shown    : List (BitVec 6 × Nat)
  expect   : Half
  xdest    : Vector (BitVec 17) 8
  lres     : BitVec 256
  lround   : BitVec 6
  imageNo  : Half
  deriving DecidableEq, Repr

end Sys2Proof.Machine
end

