-- ==== Sys2Proof/Machine/StateCtl.lean ====
section
/-! DEFINITION. The channel controller's state (07_channel_controller_model.md). -/

namespace Sys2Proof.Machine

/-- A loop level's LS, LE and LC (R182). LE is held one bit wider than its register, so that a body may end at
0x8_0000 (R217). (DEDUCED, log 18) -/
structure Level where
  ls : BitVec 20
  le : BitVec 20
  lc : Word
  deriving DecidableEq, Repr

/-- What a waiting instruction waits for (R199, R224, R417). -/
inductive WaitKind where
  | aop
  | ared
  | afence
  | rfence (covered : List (Nat × Nat))
  | yield
  | resume
  | out (addr : Half) (value : Word) (fromStack : Bool)
  | doze
  | wfi
  deriving DecidableEq, Repr

/-- A waiting instruction and its length in bytes. -/
structure Wait where
  kind : WaitKind
  len  : Nat
  deriving DecidableEq, Repr

/-- The controller state of R171, the trap records of R191 and the pending events of R193.
`ds` and `rs` are the cells held in core, top first. `pc` is held wider than 19 bits, so that a target at or
above 0x8_0000 keeps its value until the fetch that refuses it (R192). -/
structure Ctl where
  pc        : Word
  ds        : List Word
  rs        : List Word
  dsp       : Word
  dspBase   : Word
  dspLimit  : Word
  rsp       : Word
  rspBase   : Word
  rspLimit  : Word
  a         : Vector Word 8
  n         : Bool
  z         : Bool
  c         : Bool
  v         : Bool
  vff       : Bool
  ie        : Bool
  inmchk    : Bool
  repact    : Bool
  ypend     : Bool
  depth     : Nat
  levels    : Vector Level 4
  repc      : Half
  vl        : Nat
  vs        : List (Vector Word 256)
  fpctl     : BitVec 10
  deriving DecidableEq, Repr

/-- Trap records, pending events and waits of the controller (R191, R193, R197, R200). -/
structure Events where
  trapCause : Word
  trapAddr  : Word
  intPend   : Word
  intEn     : Word
  mchk      : List Nat
  brkDebug  : Bool
  stepArmed : Bool
  brkStep   : Bool
  array     : Option Byte
  hold      : Bool
  wait      : Option Wait
  yieldAns  : Option (BitVec 2)
  doorbells : List (Nat × Nat)
  rung      : List (Nat × Bool)
  deriving DecidableEq, Repr

end Sys2Proof.Machine
end

