-- ==== Sys2Proof/Machine/StateHost.lean ====
section
/-! DEFINITION. One PCIe function of the host port and the power and timebase registers of one channel
(13_host_port.md, 16_power_reset_and_clocks.md). -/

namespace Sys2Proof.Machine

/-- The AER messages of R354. -/
inductive AerMsg where
  | cor | nonfatal | fatal
  deriving DecidableEq, Repr

/-- What a function has sent to the host, oldest first: posted writes of data and completion entries (R274), read
requests with the tag of the transfer they serve, MSI-X messages (R351), AER messages (R354), and the completions of
the host's own requests: data, data with EP set, Unsupported Request, or Configuration Request Retry Status. -/
inductive HostOut where
  | write (addr : Nat) (bytes : List Byte) (relaxed : Bool)
  | read (tag : Nat) (addr : Nat) (len : Nat)
  | msix (vector : Nat) (addr : BitVec 64) (data : Word)
  | aer (m : AerMsg)
  | data (bytes : List Byte) (poisoned : Bool)
  | unsupported
  | retry
  | config (word : Word)
  deriving DecidableEq, Repr

/-- The AER status bits that the module sets (R354), their masks, and whether an uncorrectable bit is signalled as
fatal (its severity). `link` are Data Link Protocol, surprise down and uncorrectable flit, bits 4 to 6 of the uncorrectable
errors after internal, poisoned, unsupported and timeout; `linkCor` receiver error, bad TLP, bad DLLP, replay rollover,
replay timeout and corrected flit, bits 0 to 5 of the corrected ones before internal. -/
structure Aer where
  corInternal : Bool
  uncInternal : Bool
  poisoned    : Bool
  unsupported : Bool
  timeout     : Bool
  link        : BitVec 3
  linkCor     : BitVec 6
  maskCor     : BitVec 7
  maskUnc     : BitVec 7
  severity    : BitVec 7
  deriving DecidableEq, Repr

/-- The settings of a function that its channel's racking engine follows (R339, R352): Bus Master Enable, Enable Relaxed
Ordering, and the codes of Max Payload Size and Max Read Request Size. -/
structure EngineCtl where
  bme        : Bool
  relaxed    : Bool
  maxPayload : BitVec 3
  maxRead    : BitVec 3
  deriving DecidableEq, Repr

/-- One PCIe function: its enables (R340, R344, R350 to R352), MSI-X table and pending bits (R351), AER state, and
`retry`: its configuration state has been reset and its channel has not been ready since (R353, R357).
(DESIGN CHOICE, log 86) -/
structure Fn where
  mse      : Bool
  bme      : Bool
  d3       : Bool
  msixEn   : Bool
  funcMask : Bool
  relaxed  : Bool
  maxPayload : BitVec 3
  maxRead  : BitVec 3
  ecrcGen  : Bool
  ecrcChk  : Bool
  aspm     : BitVec 2
  ctoRange : BitVec 4
  errEn    : BitVec 3
  bar0     : BitVec 64
  bar2     : BitVec 64
  table    : List (Nat × BitVec 128)
  pba      : List Nat
  aer      : Aer
  retry    : Bool
  out      : List HostOut
  deriving DecidableEq, Repr

/-- The settings of a function that an engine follows. -/
def engineOf (f : Fn) : EngineCtl where
  bme := f.bme
  relaxed := f.relaxed
  maxPayload := f.maxPayload
  maxRead := f.maxRead

/-- The channel's host registers (13, Registers). -/
structure HostRegs where
  hwin : BitVec 5
  h2c  : Word
  c2h  : Word
  deriving DecidableEq, Repr

/-- CH_PWR_CTL, CH_PWR_STAT and the doze requests of R417 to R419; the compare units and the channel's views of
TIMEBASE (R423 to R425). `woken` says that a compare unit which fired at its arming under TB_WAKE has yet to wake the pair
partner (R419). -/
structure Pwr where
  autoIdle : Bool
  tbWake   : Bool
  reqCtl   : Bool
  reqHost  : Bool
  wake     : BitVec 2
  last     : Bool
  cmp0     : Word
  cmp1     : Word
  arm0     : Bool
  arm1     : Bool
  tbHi     : Word
  stepped  : Bool
  woken    : Bool
  deriving DecidableEq, Repr

end Sys2Proof.Machine
end

