-- ==== Sys2Proof/Machine/StateLink.lean ====
section
/-! DEFINITION. The transfer side of one channel's state: queue pairs, entries, HBM and keg ports. -/

namespace Sys2Proof.Machine

/-- A queue pair (R265 to R268): its registers, the doorbells as the engine last sampled them, its phase, whether
DBERR stopped its fetching, its counted completions since it last fired, and the microseconds known to have passed since
the first of them. -/
structure QP where
  sqdb     : Half
  cqdb     : Half
  enable   : Bool
  dmemRing : Bool
  log2     : BitVec 4
  ordered  : Bool
  prio     : Bool
  irqTgt   : Bool
  irqEn    : Bool
  dberr    : Bool
  cfgerr   : Bool
  baseLo   : Word
  baseHi   : Word
  sqHead   : Half
  cqTail   : Half
  modCount : Half
  modTime  : Half
  tailS    : Half
  headS    : Half
  phase    : Bool
  stopped  : Bool
  counted  : Nat
  waited   : Nat
  deriving DecidableEq, Repr

/-- How far an entry has got: being read from a host ring, fetched and not started, moving (waiting for host data from a
byte offset up to the end of the read that asked for it, for the Mill's clock tree 0, or for remote acknowledgements), or
finished with a status, DETAIL reason and AUX (R263). -/
inductive EntryState where
  | reading
  | fetched
  | hostRead (offset upto : Nat)
  | atMill
  | converted
  | moving
  | finished (status : Byte) (reason : Nat) (aux : Word)
  deriving DecidableEq, Repr

/-- A DMEM word write that port A made drop, to be retried once (R238): its word index, its value, the bytes that it
writes, and whether it is a plain write, a bit-set or a bit-clear operation (`win` 0, 1, 2). `off` is the word-side
byte offset that it comes from. -/
structure LostWrite where
  word : Nat
  data : Word
  mask : BitVec 4
  win  : Nat
  off  : Nat
  deriving DecidableEq, Repr

/-- A fetched entry and its tag (R270). `acks` counts packets sent and not acknowledged, `refused` holds the first
refusal reason (R278). `mark` is the number of mill frame checks that an FMT 1 transfer waits for before it completes
(R307); `buf` holds host data that has come. `lost` says that a DMEM word stayed dropped, `own` that the entry lies before
an SQ doorbell value that the controller itself wrote (R201), and `covered` that an RFENCE waits for it. -/
structure Entry where
  tag     : Nat
  q       : Nat
  slot    : Nat
  cells   : List Word
  state   : EntryState
  lost    : Bool
  retry   : List LostWrite
  acks    : Nat
  refused : Option Nat
  own     : Bool
  covered : Bool
  mark    : Nat
  buf     : List Byte
  deriving DecidableEq, Repr

/-- An inbound notification that waits for its data or for a CQ slot (R279): the packet of its transfer that came last,
and the bytes of the transfer that are visible; `refused` once a packet of it has been refused, so that it is never
given. -/
structure Note where
  cid   : Half
  sqid  : Half
  src   : Half
  pkt   : Packet
  bytes : Nat
  refused : Bool
  deriving DecidableEq, Repr

/-- A completion entry of a DMEM ring with words that port A made drop (R450), as word indexes and values: the tag it
still holds, whether it counts toward the interrupt, whether it raises line 4, and the inbound packet that is
acknowledged once it has landed. -/
structure Posting where
  q     : Nat
  tag   : Option Nat
  words : List (Nat × Word)
  count : Bool
  err   : Bool
  ack   : Option Packet
  deriving DecidableEq, Repr

/-- The racking engine (10_racking_hbm_and_queues.md). `inq` holds ejected HBM_WRITE and PLANE_WRITE packets, `images`
ejected images, `responses` ejected responses; `held` the inbound plane writes accepted and not yet visible, each with the
mill frame checks that it waits for; `xtags` the image sends awaiting a RESPONSE (R329). -/
structure Rack where
  qps       : Vector QP 256
  entries   : List Entry
  posting   : List Posting
  notes     : List Note
  inbound   : Half
  inwin     : Word
  rtimeout  : Word
  rr0       : Nat
  rr1       : Nat
  inq       : List Packet
  images    : List Packet
  responses : List Packet
  mgmt      : List Packet
  held      : List (Packet × Nat)
  xtags     : List (Nat × Half)
  deriving DecidableEq, Repr

/-- A damaged 32-byte HBM block (R283). -/
structure HbmMark where
  block : Nat
  ue    : Bool
  deriving DecidableEq, Repr

/-- A row in the repair record: it awaits repair at the next start, has been repaired, or has no repair resources left and
stays in service (R284, R285). -/
inductive RowState where
  | pending | repaired | exhausted
  deriving DecidableEq, Repr

/-- A row of the channel's repair record. -/
structure RepairRow where
  row   : Nat
  state : RowState
  deriving DecidableEq, Repr

/-- The channel's HBM stack and controller (R282 to R286). `record` is its repair record, `rowCes` counts the corrected
accesses of each row, and `refresh` says that the stacks refresh themselves, in DOZE (R417). -/
structure Hbm where
  bytes   : List (Nat × Byte)
  marks   : List HbmMark
  trained : Bool
  lanes   : BitVec 5
  record  : List RepairRow
  ce      : Word
  ue      : Word
  passes  : Half
  rowCes  : List (Nat × Nat)
  refresh : Bool
  deriving DecidableEq, Repr

/-- The states of KEG_PSTAT.STATE. -/
inductive PState where
  | down | negotiating | up | miswired | disabled
  deriving DecidableEq, Repr

/-- A keg port (12, Registers): its limits, its state and its negotiated mode. `edgeOn` is EDGE_ANY as the last negotiation
took it; `active` and `spare` are the lanes in use and the spare lane that is held; `psession` is the partner's session
value, none before the first negotiation, and `pknown` the CSTATE that the partner sent last. `low` is the state in which a
port at one lane and 10.3125 Gb/s goes on carrying traffic while it negotiates (R334). -/
structure Port where
  enable     : Bool
  maxRate    : BitVec 2
  maxLanes   : BitVec 2
  fecOffOk   : Bool
  edgeAny    : Bool
  edgeOn     : Bool
  state      : PState
  low        : Option PState
  rate       : BitVec 2
  lanes      : BitVec 2
  active     : BitVec 5
  spare      : BitVec 5
  spareUsed  : Bool
  fec        : Bool
  version    : BitVec 4
  bypHops    : BitVec 4
  pstate     : BitVec 3
  pmismatch  : Bool
  pchg       : Bool
  renegd     : Bool
  downev     : Bool
  partner    : Half
  pvalid     : Bool
  psession   : Option Word
  pknown     : BitVec 3
  replays    : Half
  fecUncorr  : Half
  deriving DecidableEq, Repr

/-- The sequenced part of a port's link (R317 to R322) and its router queues (R325, R328). `wire` are the frames on their
way to the other end of an interior link, `unsent` frames to be replayed, `txEdges` slots exported and not yet sent,
`edgeFlits` the rest of one being sent with its start and depth marks, `pktFlits` the rest of a packet being sent; `rxSlots`
and `rxPackets` are what received frames completed, and `rxEdge`, `rxVc0`, `rxVc1` the flits of one that has not completed.
`tx` are the packets whose next hop is this port, `turn` says that VC0 sends next, and `limited` that the port has been
unusable for KEG_DOWN_LIMIT (R328). `ask` says that a timebase measurement is due, `owe` that an answer to the partner's is,
and `heard` holds the TIMEBASE that the partner answered with (R320, R331). -/
structure Link where
  seqNext   : Half
  expected  : Half
  nak       : Bool
  replay    : List Frame
  unsent    : List Frame
  wire      : List Frame
  replayed  : Nat
  txEdges   : List Slot
  edgeFlits : List (BitVec 512 × Bool × Bool)
  pktFlits  : List Flit
  ecred     : Nat
  vcGrant   : Word
  vcCred    : Vector Nat 4
  rxEdge    : List (BitVec 512)
  rxDeep    : Bool
  rxSlots   : List Slot
  rxVc0     : List (BitVec 512)
  rxVc1     : List (BitVec 512)
  rxPackets : List Packet
  tx        : List Packet
  turn      : Bool
  limited   : Bool
  ask       : Bool
  owe       : Bool
  heard     : Option (BitVec 64)
  deriving DecidableEq, Repr

/-- A packet that still occupies the input buffer of a port, in a VC's request or response class (R325). -/
structure Owed where
  packet : Packet
  port   : Nat
  cls    : Nat
  deriving DecidableEq, Repr

/-- The keg block of one channel (12_keg_links_and_system_topology.md). `own` is the place of the channel in the torus
and `addr` its global channel address, which in PAIRED mode is that of the even channel (R404). `owed` are the packets in
the router whose input buffers have not been given back. -/
structure Keg where
  ports     : Vector Port 6
  links     : Vector Link 6
  owed      : List Owed
  own       : Half
  addr      : Half
  nxm1      : BitVec 4
  nym1      : BitVec 4
  nzm1      : BitVec 4
  session   : Word
  xfail     : Bool
  discard   : Bool
  discards  : Half
  downLimit : Word
  deriving DecidableEq, Repr

end Sys2Proof.Machine
end

