-- ==== Sys2Proof/Machine/StateChan.lean ====
section
/-! DEFINITION. One channel's state: the blocks of 07 to 16 beside the array and the controller. -/

namespace Sys2Proof.Machine

/-- A damaged word of IMEM or DMEM (R240): its word index, uncorrectable or single-bit, and whether a corrected
word waits to be written back. -/
structure MemMark where
  word : Nat
  ue   : Bool
  pend : Bool
  deriving DecidableEq, Repr

/-- One word or tun plane of the copy of a borrowed region that serves no reads (R248 to R250): old contents; the same as
the copy that serves them, because it was copied or written since and writes go to both; the same in the code words written
since, and older in the others; or a march pattern, solid or checkerboard, for a 0 or a 1 element. -/
inductive SpareCell where
  | old
  | same
  | mixed
  | march (checker one : Bool)
  deriving DecidableEq, Repr

/-- One memory's sparge: the phase and region of SPARGE_xSTAT, STARVED, the steps done in the phase, the copy of the region
that serves no reads, and the columns in which TEST has found a failure (R248 to R251). -/
structure SpargeMem where
  phase   : BitVec 3
  starved : Bool
  region  : BitVec 13
  done    : Nat
  other   : Vector SpareCell 64
  found   : List Nat
  deriving DecidableEq, Repr

/-- IMEM, DMEM, retention and sparge of one channel (09_channel_memories_and_sparge.md). (DESIGN CHOICE, log 39) -/
structure ChanMem where
  imem     : List (Nat × Byte)
  dmem     : List (Nat × Byte)
  imarks   : List MemMark
  dmarks   : List MemMark
  imemCe   : Word
  dmemCe   : Word
  lostHost : Half
  lostRack : Half
  planeRet : Bool
  waking   : Bool
  imemWait : Bool
  fetchBuf : List Nat
  spD      : SpargeMem
  spI      : SpargeMem
  spP      : SpargeMem
  usedD    : Nat
  usedI    : Nat
  usedP    : Vector Nat 72
  outD     : Bool
  outI     : Bool
  deriving DecidableEq, Repr

/-- The channel states of CF_STAT.CSTATE (13_host_port.md). -/
inductive CState where
  | run | idle | doze | fenced | starting | fatal
  deriving DecidableEq, Repr

/-- What the members of a pair compare of the lauter root after a root effect (R169): A and its status, the snapshot,
LROUND's result, the receive bank with its status and COUNT, and the events of LAUTER_STAT. -/
structure RootCopy where
  la       : Acc
  stat     : BitVec 5
  snap     : LauImage
  lres     : BitVec 256
  lround   : BitVec 6
  bank     : Acc
  bankStat : BitVec 5
  rxCount  : Half
  events   : BitVec 3
  deriving DecidableEq, Repr

/-- An output of a member of a PAIRED pair that its partner's copy is compared with (R169, R404): a host write or read, a
vector, a packet, a slot or a slot's retirement at an edge, a global OR, an image with its destination, or what a root
effect leaves. -/
inductive PairOut where
  | host (o : HostOut)
  | vec (v : Nat)
  | packet (p : Packet)
  | slot (d : Nat) (x : Slot)
  | retire (d : Nat)
  | gor (tag : BitVec 6) (val : Bool)
  | image (dest : Half) (m : LauImage)
  | root (r : RootCopy)
  deriving DecidableEq, Repr

/-- Error summary, service mode and capture registers of one channel (15). `copies` are the outputs of a member of a pair
that have not been compared, oldest first; `pair` are the settings of the pair's function, PF1 + 2k, as channel 2k + 1 knows
them (R404). -/
structure Err where
  src           : Source
  ce            : Bool
  ucc           : Bool
  partnerFenced : Bool
  lastCode      : Byte
  detail        : Word
  mode          : BitVec 2
  solo          : Bool
  copies        : List PairOut
  pair          : EngineCtl
  capFreeze     : Bool
  capStep       : BitVec 64
  capU          : Word
  capState      : BitVec 2
  capLate       : Bool
  deriving DecidableEq, Repr

/-- The shadow cells of a capture (R408), as they stood at the capture edge: every flip-flop of the controller with its trap
records, of the sequencers, the array with the four PE latch sheets and the edges, the lauter root, the memories' logic, the
racking engine, the HBM controller, the keg block, the Mill, and the other registers of the channel. The cells of IMEM, DMEM,
plane memory and HBM are no flip-flops, and are listed empty. -/
structure Shadow where
  ctl  : Ctl
  ev   : Events
  mem  : ChanMem
  arr  : Arr
  seq  : Seq
  trap : Trap
  fmt  : Fmt
  lau  : Lau
  rack : Rack
  hbm  : Hbm
  keg  : Keg
  mill : Mill
  host : HostRegs
  pwr  : Pwr
  err  : Err
  deriving DecidableEq, Repr

/-- One channel. `free` counts the free values drawn. (DESIGN CHOICE, log 9) -/
structure Chan where
  cstate : CState
  ctl    : Ctl
  ev     : Events
  mem    : ChanMem
  arr    : Arr
  seq    : Seq
  trap   : Trap
  fmt    : Fmt
  lau    : Lau
  rack   : Rack
  hbm    : Hbm
  mill   : Mill
  keg    : Keg
  fn     : Fn
  host   : HostRegs
  pwr    : Pwr
  err    : Err
  shadow : Option Shadow
  free   : Nat
  deriving DecidableEq, Repr

end Sys2Proof.Machine
end

