-- ==== Sys2Proof/Machine/HostFn.lean ====
section
/-! DEFINITION. What a PCIe function sends: MSI-X messages and other output (R351, R357). -/

namespace Sys2Proof.Machine

/-- A vector's MSI-X table entry, address in bits 63 to 0, data in 95 to 64, vector control in 127 to 96; one that the
host has not written is masked. -/
def msixEntry (f : Fn) (v : Nat) : BitVec 128 := sparseGet (1#128 <<< 96) f.table v

/-- The vector, or the whole function, is masked. -/
def vecMasked (f : Fn) (v : Nat) : Bool := f.funcMask || bit (msixEntry f v) 96

/-- Append to what the function has sent. (DESIGN CHOICE, log 86) -/
def fnSend (f : Fn) (o : HostOut) : Fn := { f with out := f.out ++ [o] }

/-- Add a number to a strictly rising list. -/
def insertNat : Nat → List Nat → List Nat
  | n, [] => [n]
  | n, m :: t => if n < m then n :: m :: t else if n = m then m :: t else m :: insertNat n t

/-- The message of a vector. -/
def msixOf (f : Fn) (v : Nat) : HostOut :=
  .msix v ((msixEntry f v).extractLsb' 0 64) ((msixEntry f v).extractLsb' 64 32)

/-- An event sends its vector: lost while MSI-X Enable or Bus Master Enable is 0, pending while masked (R351). -/
def sendVec (f : Fn) (v : Nat) : Fn :=
  if f.msixEn = false ∨ f.bme = false then f
  else if vecMasked f v then { f with pba := insertNat v f.pba }
  else fnSend f (msixOf f v)

/-- Pending vectors that are no longer masked send their messages, lowest first. -/
def flushPending (f : Fn) : Fn :=
  if f.msixEn = false ∨ f.bme = false then f
  else
    let go := f.pba.filter fun v => !vecMasked f v
    { f with pba := f.pba.filter fun v => vecMasked f v, out := f.out ++ go.map (msixOf f) }

/-! ### Outputs of a pair (R404, R405) -/

/-- The channel is a member of a PAIRED pair, also while it runs alone. -/
def inPair (ch : Chan) : Bool := decide (ch.err.mode = 2)

/-- This channel is 2k + 1 (SVC_STAT.ODD): its coordinate carries the low bit of its number (R11). -/
def oddChan (ch : Chan) : Bool := bit ch.keg.own 10

/-- The member compares its outputs with its partner's. -/
def comparing (ch : Chan) : Bool := inPair ch && !ch.err.solo

/-- An output waits for its copy. -/
def pushCopy (ch : Chan) (x : PairOut) : Chan := { ch with err := { ch.err with copies := ch.err.copies ++ [x] } }

/-- The host sees the pair through PF1 + 2k, so what channel 2k + 1 sends goes through its partner even when it runs alone.
-/
def throughPair (ch : Chan) : Bool := comparing ch || (inPair ch && oddChan ch)

/-- The settings of the function that serves the channel. -/
def engineCtl (ch : Chan) : EngineCtl := if inPair ch && oddChan ch then ch.err.pair else engineOf ch.fn

/-- The racking engine sends a write or a read to the host. -/
def hostSend (ch : Chan) (o : HostOut) : Chan :=
  if throughPair ch then pushCopy ch (.host o) else { ch with fn := fnSend ch.fn o }

/-- A program's event sends a vector of the channel's function. The vectors that tell of this member's own state, 257 and
258, are its own function's. -/
def chanVec (ch : Chan) (v : Nat) : Chan :=
  if throughPair ch && decide (v ≠ 257 ∧ v ≠ 258) then pushCopy ch (.vec v) else { ch with fn := sendVec ch.fn v }

/-- A fence, and DOZE, stop the Mill's clock trees: both reset trees hold, and the tap transmitter is idle (R304, R396). -/
def millStops (s : CState) (m : Mill) : Mill := if s = .fenced ∨ s = .doze then millHeld m else m

/-- CF_STAT.CSTATE changes, which sends vector 258 (R351). -/
def setCState (ch : Chan) (s : CState) : Chan :=
  if ch.cstate = s then ch else chanVec { ch with cstate := s, mill := millStops s ch.mill } 258

end Sys2Proof.Machine
end

