-- ==== Sys2Proof/Machine/Ops.lean ====
section
/-! DEFINITION. The shared operations of a channel: reports, interrupt lines, DMEM words, the two stacks, frames,
trap entry and its return, and the prologue and epilogue of a controller instruction. -/

namespace Sys2Proof.Machine

/-! ### Reports and interrupts -/

/-- The queue of a source has an entry for a report: any of its 16 for a UCC or fatal one, of which two are reserved for
those, and any of the other 14 for another (R24). -/
def entryFree (q : List Report) (r : Report) : Bool :=
  decide (q.length < if r.cls = .ucc ∨ r.cls = .fatal then 16 else 14)

/-- Queue a report at a source: a CE report that finds no entry is dropped and counted, and no other report is ever dropped:
a full queue holds its writer back, and the report waits there (R24, R422). (DESIGN CHOICE, log 113) -/
def sourcePut (s : Source) (r : Report) : Source :=
  if entryFree s.queue r then { s with queue := s.queue ++ [r] }
  else if r.cls = .ce then { s with dropped := s.dropped + 1 }
  else { s with waiting := s.waiting ++ [r] }

/-- The oldest report of a source is taken, and the first writer that waits puts its report into the queue, where there is an
entry for it (R24, R422). -/
def sourceTake (s : Source) : Source :=
  let q := s.queue.drop 1
  match s.waiting with
  | r :: rest => if entryFree q r then { s with queue := q ++ [r], waiting := rest } else { s with queue := q }
  | [] => { s with queue := q }

/-- Report an error of this channel: the source queue (R24) and CH_ERR_STAT and CH_ERR_ADDR (15, Registers). -/
def report (ch : Chan) (cls : ErrClass) (code unit : Byte) (detail : Word) : Chan :=
  let src := sourcePut ch.err.src { cls := cls, code := code, unit := unit, detail := detail, fence := false }
  match cls with
  | .ce => { ch with err := { ch.err with src := src, ce := true } }
  | .ucc => { ch with err := { ch.err with src := src, ucc := true, lastCode := code, detail := detail } }
  | .fatal | .event => { ch with err := { ch.err with src := src } }

/-- Report `n` corrected errors of one kind. -/
def reportCes (code unit : Byte) (detail : Word) : Nat → Chan → Chan
  | 0, ch => ch
  | n + 1, ch => reportCes code unit detail n (report ch .ce code unit detail)

/-- An event is latched in INT_PEND (R197). -/
def raiseLine (ch : Chan) (k : Nat) : Chan :=
  { ch with ev := { ch.ev with intPend := ch.ev.intPend ||| bitAt true k } }

/-- The channel is fenced (R396): the controller, the array, the racking engine and the Mill stop, CSTATE reads
FENCED, and the report that carries the fence is queued, which makes the Maltster tell the host. A UCC in a channel
that is already fenced is logged only (R398). -/
def fenceChan (ch : Chan) (code unit : Byte) (detail : Word) : Chan :=
  if ch.cstate = .fenced then report ch .ucc code unit detail
  else
    { setCState ch .fenced with
      err := { ch.err with
        src := sourcePut ch.err.src { cls := .ucc, code := code, unit := unit, detail := detail, fence := true }
        ucc := true, lastCode := code, detail := detail } }

/-- A machine check becomes pending. While INMCHK is 1, an EVENT is held (R395), and any other cause fences the
channel (R196). (DEDUCED, log 24) -/
def raiseMchk (ch : Chan) (cause : Nat) : Chan :=
  if ch.ctl.inmchk && decide (cause ≠ 2) then fenceChan ch 0x16 0 0
  else if cause ∈ ch.ev.mchk then ch
  else { ch with ev := { ch.ev with mchk := ch.ev.mchk ++ [cause] } }

/-- A UCC that raises MCHK with cause EVENT (R394, R395). -/
def reportUccEvent (ch : Chan) (code unit : Byte) (detail : Word) : Chan :=
  raiseMchk (report ch .ucc code unit detail) 2

/-- The array raises the controller's ARRAY trap with a cause of R90 (R66, R100, R110). -/
def raiseArray (ch : Chan) (cause : Byte) : Chan := { ch with ev := { ch.ev with array := some cause } }

/-- Draw a fresh free value: the counter is read and advanced. (DESIGN CHOICE, log 9) -/
def drawFree (ch : Chan) : Nat × Chan := (ch.free, { ch with free := ch.free + 1 })

/-! ### Register file -/

/-- The boundary that no instruction crosses: capture-and-freeze stops every clock of the channel (R409). -/
def frozen (ch : Chan) : Bool := ch.err.capState = 3#2

/-- The channel's clocks run and the channel is in RUN. -/
def chanRunning (ch : Chan) : Bool := decide (ch.cstate = .run) && !frozen ch

/-- STATUS as a word (CPU_STATUS card). -/
def statusWord (t : Ctl) : Word :=
  bitAt t.n 0 ||| bitAt t.z 1 ||| bitAt t.c 2 ||| bitAt t.v 3 ||| bitAt t.vff 4 ||| bitAt t.ie 5
    ||| bitAt t.inmchk 6 ||| bitAt t.repact 7 ||| bitAt t.ypend 8

/-- FLAGS as a frame cell: bits 4 to 0 of STATUS (R175). -/
def flagsWord (t : Ctl) : Word := statusWord t &&& 0x1F#32

/-- Restore FLAGS from a frame cell: STATUS bits 4 to 0 only (R176). -/
def setFlagsWord (t : Ctl) (w : Word) : Ctl :=
  { t with n := bit w 0, z := bit w 1, c := bit w 2, v := bit w 3, vff := bit w 4 }

/-- Restore STATUS bits 7 to 0 from a trap frame (R195). -/
def setStatusWord (t : Ctl) (w : Word) : Ctl :=
  { setFlagsWord t w with ie := bit w 5, inmchk := bit w 6, repact := bit w 7 }

/-! ### DMEM and IMEM words with their ECC -/

/-- A trap to take: its vector, its cause and TRAP_ADDR (R191). `back` is how far before the instruction its return
address lies: 3 for an OUT with a stack-supplied address that R186 refuses, whose return address is the REP. `ecc` is
the byte address of an uncorrectable DMEM word that the instruction found and that is reported with the trap. `met` is the
channel as the reads that the instruction made before the trap left it, for their single-bit errors (R240). -/
structure TrapInfo where
  vec   : Nat
  cause : Nat
  addr  : Word
  back  : Nat := 0
  ecc   : Option Nat := none
  met   : Option Chan := none
  deriving DecidableEq, Repr

/-- The trap is raised in channel state `ch`, unless something before raised it. -/
def metIn (ch : Chan) (e : TrapInfo) : TrapInfo := if e.met.isSome then e else { e with met := some ch }

/-- What `f` answers, or its trap, raised in channel state `ch`. -/
def trapIn {α : Type} (ch : Chan) (r : Except TrapInfo α) : Except TrapInfo α :=
  match r with
  | .error e => .error (metIn ch e)
  | .ok x => .ok x

/-- The channel `ch` before an instruction, with what the reads up to `f` did: corrected words wait for their write-back,
the errors are counted and reported (R240). Nothing else that the instruction did remains (R173, R192).
(DEDUCED, log 126) -/
def keepReads (ch f : Chan) : Chan :=
  { ch with
    mem := { ch.mem with
      imarks := f.mem.imarks, dmarks := f.mem.dmarks, imemCe := f.mem.imemCe, dmemCe := f.mem.dmemCe }
    err := f.err }

/-- The size of DMEM in bytes (R235). -/
def dmemSize : Nat := 0x100000

/-- The size of IMEM in bytes (R231). -/
def imemSize : Nat := 0x80000

/-- The word is uncorrectable. -/
def markUe (ms : List MemMark) (word : Nat) : Bool := ms.any fun m => decide (m.word = word) && m.ue

/-- The word holds a single-bit error. -/
def markCe (ms : List MemMark) (word : Nat) : Bool := ms.any fun m => decide (m.word = word) && !m.ue

/-- Mark a word's corrected value as waiting to be written back. -/
def markPend (ms : List MemMark) (word : Nat) : List MemMark :=
  ms.map fun m => if m.word = word then { m with pend := true } else m

/-- A write of the whole word clears its errors (R241). -/
def markClear (ms : List MemMark) (word : Nat) : List MemMark := ms.filter fun m => decide (m.word ≠ word)

/-- A checked DMEM read of one word meets a single-bit error: corrected, counted, reported CE 0x09 (R240). -/
def dmemCheck (ch : Chan) (word : Nat) : Chan :=
  if markCe ch.mem.dmarks word then
    report { ch with mem := { ch.mem with
      dmarks := markPend ch.mem.dmarks word, dmemCe := satInc ch.mem.dmemCe 1 } }
      .ce 0x09 (BitVec.ofNat 8 (word % 16)) (BitVec.ofNat 32 (4 * word))
  else ch

/-- As `dmemCheck`, for IMEM. -/
def imemCheck (ch : Chan) (word : Nat) : Chan :=
  if markCe ch.mem.imarks word then
    report { ch with mem := { ch.mem with
      imarks := markPend ch.mem.imarks word, imemCe := satInc ch.mem.imemCe 1 } }
      .ce 0x09 0 (BitVec.ofNat 32 (4 * word))
  else ch

/-- DACCESS with cause ECC: an uncorrectable read on port A, reported UCC 0x0A (R178, R240, R394). The report is made
where the trap is taken. -/
def eccTrap (a : Nat) : TrapInfo := { vec := 7, cause := 4, addr := BitVec.ofNat 32 a, ecc := some a }

/-- Report an uncorrectable DMEM word, UCC 0x0A with its bank and byte address (R240, R394). -/
def reportDmemUe (ch : Chan) (a : Nat) : Chan :=
  report ch .ucc 0x0A (BitVec.ofNat 8 (a / 4 % 16)) (BitVec.ofNat 32 (4 * (a / 4)))

/-- A checked DMEM word read at a word-aligned address (R240). -/
def dmemRead (ch : Chan) (a : Nat) : Except TrapInfo (Word × Chan) :=
  if markUe ch.mem.dmarks (a / 4) then .error (metIn ch (eccTrap (4 * (a / 4))))
  else .ok (memWord ch.mem.dmem (4 * (a / 4)), dmemCheck ch (a / 4))

/-- Cell `k` of the copy of a borrowed region that serves no reads. -/
def setCell (x : SpargeMem) (k : Nat) (v : SpareCell) : SpargeMem :=
  { x with other := Vector.ofFn fun i : Fin 64 => if i.val = k then v else x.other[i] }

/-- In these phases of sparge a write goes to both copies of the region (R248). -/
def writesBoth (phase : Nat) : Bool := decide (phase = 1 ∨ phase = 2 ∨ phase = 4 ∨ phase = 5)

/-- Cell `k` of a region is written, wholly or in part (`v` is `same` or `mixed`), in the copy that serves accesses; where
writes go to both, the other copy takes the same (R248, R249). -/
def noteCell (x : SpargeMem) (region k : Nat) (v : SpareCell) : SpargeMem :=
  if writesBoth x.phase.toNat = true ∧ x.region.toNat = region then
    setCell x k (if x.other.toList.getD k .old = .same then .same else v)
  else x

/-- A whole-word DMEM store, which replaces an uncorrectable word (R241), in both copies of a borrowed region (R248). -/
def dmemWrite (ch : Chan) (a : Nat) (x : Word) : Chan :=
  { ch with mem := { ch.mem with
    dmem := memSetWord ch.mem.dmem (4 * (a / 4)) x, dmarks := markClear ch.mem.dmarks (a / 4)
    spD := noteCell ch.mem.spD (a / 4 / 64) (a / 4 % 64) .same } }

/-! ### The data stack (R172, R173) -/

/-- Read `n` missing cells back from DSP − 4 downward, DSP decreasing by 4 for each. -/
def fillCells : Nat → Nat → Chan → Except TrapInfo (List Word × Chan)
  | 0, _, ch => .ok ([], ch)
  | n + 1, a, ch =>
    match dmemRead ch (a - 4) with
    | .error e => .error e
    | .ok (w, ch) =>
      match fillCells n (a - 4) ch with
      | .error e => .error e
      | .ok (ws, ch) => .ok (w :: ws, ch)

/-- Bring at least `k` data cells into core, or STACK DUNF (R172, R173). -/
def fillData (ch : Chan) (k : Nat) : Except TrapInfo Chan :=
  let missing := k - ch.ctl.ds.length
  let dsp := ch.ctl.dsp.toNat
  if missing = 0 then .ok ch
  else if dsp < ch.ctl.dspBase.toNat + 4 * missing then .error { vec := 4, cause := 2, addr := 0 }
  else
    match fillCells missing dsp ch with
    | .error e => .error e
    | .ok (ws, ch) =>
      .ok { ch with ctl := { ch.ctl with ds := ch.ctl.ds ++ ws, dsp := BitVec.ofNat 32 (dsp - 4 * missing) } }

/-- Write cells to DMEM from an address upward, oldest first. -/
def spillCells : List Word → Nat → Chan → Chan
  | [], _, ch => ch
  | w :: t, a, ch => spillCells t (a + 4) (dmemWrite ch a w)

/-- Push cells on the data stack, the last of the list on top: the oldest in-core cells spill at DSP, or STACK DOVF
when a spill would write at DSP_LIMIT or above (R172, R173). -/
def pushData (ch : Chan) (xs : List Word) : Except TrapInfo Chan :=
  let all := xs.reverse ++ ch.ctl.ds
  let excess := all.length - 8
  let dsp := ch.ctl.dsp.toNat
  if excess = 0 then .ok { ch with ctl := { ch.ctl with ds := all } }
  else if dsp + 4 * excess > min ch.ctl.dspLimit.toNat dmemSize then .error { vec := 4, cause := 1, addr := 0 }
  else
    let ch := spillCells (all.drop 8).reverse dsp ch
    .ok { ch with ctl := { ch.ctl with ds := all.take 8, dsp := BitVec.ofNat 32 (dsp + 4 * excess) } }

/-- Take `k` cells that are in core, top first. -/
def takeData (ch : Chan) (k : Nat) : List Word × Chan :=
  (ch.ctl.ds.take k, { ch with ctl := { ch.ctl with ds := ch.ctl.ds.drop k } })

/-- An instruction that pops `k` data cells (given top first), computes, and pushes its results, last on top. Its
inputs are checked first and its outputs last (R192), and a trap leaves no effect because the state before it is
kept (R173). -/
def stackOp (k : Nat) (f : List Word → Chan → Except TrapInfo (List Word × Chan)) (ch : Chan) :
    Except TrapInfo Chan :=
  match fillData ch k with
  | .error e => .error e
  | .ok ch =>
    let (xs, ch) := takeData ch k
    match trapIn ch (f xs ch) with
    | .error e => .error e
    | .ok (rs, ch) => trapIn ch (pushData ch rs)

/-! ### The return stack (R172, R175, R194) -/

/-- Push cells on the return stack, first to last; spills may reach `limit`. -/
def pushReturnTo (limit : Nat) (ch : Chan) (xs : List Word) : Except TrapInfo Chan :=
  let all := xs.reverse ++ ch.ctl.rs
  let excess := all.length - 16
  let rsp := ch.ctl.rsp.toNat
  if excess = 0 then .ok { ch with ctl := { ch.ctl with rs := all } }
  else if rsp + 4 * excess > min limit dmemSize then .error { vec := 4, cause := 3, addr := 0 }
  else
    let ch := spillCells (all.drop 16).reverse rsp ch
    .ok { ch with ctl := { ch.ctl with rs := all.take 16, rsp := BitVec.ofNat 32 (rsp + 4 * excess) } }

/-- Push cells on the return stack under RSP_LIMIT, or STACK ROVF (07, The return stack and call frames). -/
def pushReturn (ch : Chan) (xs : List Word) : Except TrapInfo Chan :=
  pushReturnTo ch.ctl.rspLimit.toNat ch xs

/-- Bring at least `k` return cells into core, or STACK RUNF. A frame may be longer than the core holds; `popReturn`
then takes it in pieces. -/
def fillReturn (ch : Chan) (k : Nat) : Except TrapInfo Chan :=
  let missing := k - ch.ctl.rs.length
  let rsp := ch.ctl.rsp.toNat
  if missing = 0 then .ok ch
  else if rsp < ch.ctl.rspBase.toNat + 4 * missing then .error { vec := 4, cause := 4, addr := 0 }
  else
    match fillCells missing rsp ch with
    | .error e => .error e
    | .ok (ws, ch) =>
      .ok { ch with ctl := { ch.ctl with rs := ch.ctl.rs ++ ws, rsp := BitVec.ofNat 32 (rsp - 4 * missing) } }

/-- Pop `k` return cells, top first. -/
def popReturn (ch : Chan) (k : Nat) : Except TrapInfo (List Word × Chan) :=
  match fillReturn ch k with
  | .error e => .error e
  | .ok ch => .ok (ch.ctl.rs.take k, { ch with ctl := { ch.ctl with rs := ch.ctl.rs.drop k } })

/-! ### The loop nest (R182 to R184) -/

/-- The cells of a loop nest block: LS, LE, LC for each open level, lowest first, then the depth (R175). -/
def nestCells (t : Ctl) : List Word :=
  ((List.range t.depth).flatMap fun k =>
    let l := t.levels.toList.getD k { ls := 0, le := 0, lc := 0 }
    [l.ls.setWidth 32, l.le.setWidth 32, l.lc]) ++ [BitVec.ofNat 32 t.depth]

/-- The level of an index. -/
def levelAt (t : Ctl) (k : Nat) : Level := t.levels.toList.getD k { ls := 0, le := 0, lc := 0 }

/-- Set the level of an index. -/
def setLevel (t : Ctl) (k : Nat) (l : Level) : Ctl :=
  { t with levels := Vector.ofFn fun i : Fin 4 => if i.val = k then l else t.levels[i] }

/-- Sequential arrival at an address: the innermost level whose LE it is fires, and a level that closes lets the next
one be checked at once (R183). The spec gives no meaning to a count of 0, which only an OUT can leave: whether such a
level closes or loops is a free value. (DESIGN CHOICE, log 17) -/
def fireLoops : Nat → Ctl → Word → Ctl
  | 0, t, addr => { t with pc := addr }
  | fuel + 1, t, addr =>
    let l := levelAt t (t.depth - 1)
    if t.depth = 0 ∨ l.le.setWidth 32 ≠ addr then { t with pc := addr }
    else if l.lc.toNat > 1 ∨ (l.lc = 0 ∧ Config.zeroCount l.le = true) then
      { setLevel t (t.depth - 1) { l with lc := l.lc - 1 } with pc := l.ls.setWidth 32 }
    else fireLoops fuel { t with depth := t.depth - 1 } addr

/-- Continue at the next sequential address, firing loops (R183). -/
def arrive (ch : Chan) (addr : Word) : Chan := { ch with ctl := fireLoops 4 ch.ctl addr }

/-- The next instruction's address. -/
def nextPc (ch : Chan) (len : Nat) : Word := ch.ctl.pc + BitVec.ofNat 32 len

/-- End of a sequential instruction: one repetition of a REP sequence ends, or execution continues after the
instruction, where a loop may fire (R183, R185). An instruction that runs with REPACT 1 and REPC 0, which only a frame made
by software can leave, runs once. (DEDUCED, log 127) -/
def advance (ch : Chan) (len : Nat) : Chan :=
  if ch.ctl.repact then
    if ch.ctl.repc.toNat ≤ 1 then
      arrive { ch with ctl := { ch.ctl with repc := 0, repact := false } } (nextPc ch len)
    else { ch with ctl := { ch.ctl with repc := ch.ctl.repc - 1 } }
  else arrive ch (nextPc ch len)

/-! ### Trap entry and RETI (R194 to R196) -/

/-- The frame word of a trap frame (R194). -/
def trapFrameWord : Word := 0x00010B00#32

/-- The cells of a trap frame, first to last. -/
def trapFrame (t : Ctl) (ret : Word) : List Word :=
  nestCells t ++ [BitVec.ofNat 32 t.vl, t.fpctl.setWidth 32, t.repc.setWidth 32, statusWord t, trapFrameWord, ret]

/-- TRAP_CAUSE (07, Registers). -/
def trapCauseWord (vec cause : Nat) (async : Bool) : Word := fldAt vec 0 ||| fldAt cause 8 ||| bitAt async 16

/-- Take a trap whose frame fits: push the frame, empty the nest, clear REPC, IE and REPACT, set INMCHK for vector 10,
write TRAP_CAUSE and TRAP_ADDR, and continue at 4 · v. The frame may spill into the reserve above RSP_LIMIT (R194). -/
def tryEntry (ch : Chan) (i : TrapInfo) (async : Bool) (ret : Word) : Except TrapInfo Chan :=
  match pushReturnTo (ch.ctl.rspLimit.toNat + 256) ch (trapFrame ch.ctl ret) with
  | .error e => .error e
  | .ok ch =>
    .ok { ch with
      ctl := { ch.ctl with
        depth := 0, repc := 0, ie := false, repact := false
        inmchk := ch.ctl.inmchk || decide (i.vec = 10)
        pc := BitVec.ofNat 32 (4 * i.vec) }
      ev := { ch.ev with
        trapCause := trapCauseWord i.vec i.cause async, trapAddr := i.addr, wait := none } }

/-- Take a trap, from the spec's one description of it (R194, R196). A cause for vectors 1 to 7 or 10 while INMCHK is 1
fences the channel; a frame push that fails makes the controller take MCHK with cause ENTRY instead, and a failure
there fences the channel. -/
def takeTrap (ch : Chan) (i : TrapInfo) (async : Bool) (ret : Word) : Chan :=
  if ch.ctl.inmchk && (decide (1 ≤ i.vec ∧ i.vec ≤ 7) || decide (i.vec = 10)) then fenceChan ch 0x16 0 ret
  else
    match tryEntry ch i async ret with
    | .ok ch => ch
    | .error _ =>
      if ch.ctl.inmchk || decide (i.vec = 10) then fenceChan ch 0x16 0 ret
      else
        match tryEntry ch { vec := 10, cause := 4, addr := 0 } true ret with
        | .ok ch => ch
        | .error _ => fenceChan ch 0x16 0 ret

/-- A synchronous trap at the current instruction (R194). The single-bit errors that its reads met are kept (R240); an
uncorrectable DMEM or IMEM word is reported UCC 0x0A. -/
def syncTrap (ch : Chan) (i : TrapInfo) : Chan :=
  let ch := match i.met with
    | some f => keepReads ch f
    | none => ch
  let ch := match i.ecc with
    | some a => reportDmemUe ch a
    | none =>
      if i.vec = 6 ∧ i.cause = 2 ∨ i.vec = 7 ∧ i.cause = 4 then report ch .ucc 0x0A 0 i.addr else ch
  takeTrap ch i false (ch.ctl.pc - BitVec.ofNat 32 i.back)

/-- Restore a loop nest from the cells below its depth cell, given top first: LC, LE, LS of the highest level first
(R176). Bit 19 of an LS cell is kept, as LE's is. (DEDUCED, log 18) -/
def restoreNest : Nat → List Word → Ctl → Ctl
  | 0, _, t => t
  | d + 1, lc :: le :: ls :: rest, t =>
    restoreNest d rest (setLevel t d { ls := ls.setWidth 20, le := le.setWidth 20, lc := lc })
  | _ + 1, _, t => t

/-! ### Pending events (R193) -/

/-- The lowest interrupt line that is pending and enabled. -/
def lowestLine (w : Word) : Option Nat := (List.range 32).find? fun k => bit w k

/-- The event that the controller takes at the next boundary, with its vector and cause (R193). Among several pending
MCHK causes the one that became pending first is taken. (DEDUCED, log 24) -/
def takeable (ch : Chan) : Option TrapInfo :=
  if ch.ev.mchk ≠ [] ∧ ch.ctl.inmchk = false then some { vec := 10, cause := ch.ev.mchk.headD 0, addr := 0 }
  else if ch.ev.brkDebug then some { vec := 11, cause := 2, addr := 0 }
  else if ch.ev.brkStep then some { vec := 11, cause := 3, addr := 0 }
  else if ch.ctl.ie = false then none
  else
    match ch.ev.array with
    | some c => some { vec := 8, cause := c.toNat, addr := 0 }
    | none =>
      if ch.ev.hold then some { vec := 9, cause := 0x0B, addr := 0 }
      else (lowestLine (ch.ev.intPend &&& ch.ev.intEn)).map fun k => { vec := 16 + k, cause := 0, addr := 0 }

/-- The event is no longer pending once taken; a line stays pending in INT_PEND until the program clears it (R197). -/
def clearTaken (ch : Chan) (i : TrapInfo) : Chan :=
  if i.vec = 10 then { ch with ev := { ch.ev with mchk := ch.ev.mchk.drop 1 } }
  else if i.vec = 11 ∧ i.cause = 2 then { ch with ev := { ch.ev with brkDebug := false } }
  else if i.vec = 11 then { ch with ev := { ch.ev with brkStep := false } }
  else if i.vec = 8 then { ch with ev := { ch.ev with array := none } }
  else if i.vec = 9 then { ch with ev := { ch.ev with hold := false } }
  else ch

/-- What ends a WFI wait: MCHK, a debug BREAK, ARRAY, PLANE_HOLD, or an enabled line, whatever IE holds (R224). -/
def wfiEvent (ch : Chan) : Bool :=
  (decide (ch.ev.mchk ≠ []) && !ch.ctl.inmchk) || ch.ev.brkDebug || ch.ev.brkStep || ch.ev.array.isSome || ch.ev.hold
    || decide (ch.ev.intPend &&& ch.ev.intEn ≠ 0#32)

/-! ### The controller's instruction cycle -/

/-- The controller crosses an instruction boundary: its channel runs, and no request of the host or of management for DOZE
stops it there (R417). -/
def ctlGoes (ch : Chan) : Bool := chanRunning ch && !ch.pwr.reqHost

/-- The controller executes an instruction: it goes on, it is not waiting, and no event is to be taken at this boundary
first (R193). -/
def ctlReady (ch : Chan) : Bool := ctlGoes ch && ch.ev.wait.isNone && (takeable ch).isNone

/-- The 16-byte line of an instruction byte enters the four-line fetch buffer (R232). The oldest line leaves.
(DESIGN CHOICE, log 25) -/
def bufferLine (buf : List Nat) (line : Nat) : List Nat :=
  if line ∈ buf then buf else (buf ++ [line]).drop (buf.length - 3)

/-- The words of IMEM that hold the `len` bytes from `pc`. -/
def fetchWords (pc len : Nat) : List Nat :=
  if pc / 4 = (pc + len - 1) / 4 then [pc / 4]
  else if (pc + len - 1) / 4 = pc / 4 + 1 then [pc / 4, pc / 4 + 1]
  else [pc / 4, pc / 4 + 1, pc / 4 + 2]

/-- The 16-byte lines of the instruction that are not in the fetch buffer. -/
def missingLines (ch : Chan) (len : Nat) : List Nat :=
  (((fetchWords ch.ctl.pc.toNat len).map (· / 4)).eraseDups).filter fun l => decide (l ∉ ch.mem.fetchBuf)

/-- The four words of a line. -/
def lineWords (line : Nat) : List Nat := [4 * line, 4 * line + 1, 4 * line + 2, 4 * line + 3]

/-- Fetch `len` bytes at the PC (R192 step 1, R203, R232, R240): RANGE when a byte lies outside IMEM, with the address of
the first such byte, ECC when a line not in the fetch buffer holds an uncorrectable word of the instruction. All four
words of a line that is fetched are checked; a line with an uncorrectable word is not kept, so the word faults when it is
executed. (DESIGN CHOICE, log 5; DESIGN CHOICE, log 25; DEDUCED, log 16) -/
def fetchOk (ch : Chan) (len : Nat) : Except TrapInfo Chan :=
  let pc := ch.ctl.pc.toNat
  if pc + len > imemSize then .error { vec := 6, cause := 1, addr := BitVec.ofNat 32 (max pc imemSize) }
  else
    let lines := missingLines ch len
    let need := (fetchWords pc len).filter fun w => decide (w / 4 ∈ lines)
    let good := lines.filter fun l => (lineWords l).all fun w => !markUe ch.mem.imarks w
    let ch := (lines.flatMap lineWords).foldl imemCheck ch
    match need.find? (markUe ch.mem.imarks) with
    | some w => .error (metIn ch { vec := 6, cause := 2, addr := BitVec.ofNat 32 (4 * w) })
    | none =>
      .ok { ch with mem := { ch.mem with fetchBuf := good.foldl bufferLine ch.mem.fetchBuf } }

/-- A debug single step: after an instruction completes, BREAK with cause STEP becomes pending (R385). -/
def afterInstr (ch : Chan) : Chan :=
  if ch.ev.stepArmed then { ch with ev := { ch.ev with stepArmed := false, brkStep := true } } else ch

/-- What an instruction's body answers: the instruction is complete and execution continues sequentially, it
transferred control itself, or it waits. -/
inductive Done where
  | seq (ch : Chan)
  | jump (ch : Chan)
  | wait (ch : Chan) (k : WaitKind)

/-- Execute one controller instruction of `len` bytes: fetch check, body, and either the step past it, the transfer it
made, its wait, or the synchronous trap it raised, which sees the state before the instruction (R192 to R194).
(DESIGN CHOICE, log 5) -/
def runInstr (len : Nat) (body : Chan → Except TrapInfo Done) (ch : Chan) : Chan :=
  if ctlReady ch = false then ch
  else
    match fetchOk ch len with
    | .error e => syncTrap ch e
    | .ok ch =>
      match body ch with
      | .error e => syncTrap ch e
      | .ok (.seq ch') => afterInstr (advance ch' len)
      | .ok (.jump ch') => afterInstr ch'
      | .ok (.wait ch' k) => { ch' with ev := { ch'.ev with wait := some { kind := k, len := len } } }

/-- A body that always continues sequentially. -/
def seqBody (f : Chan → Except TrapInfo Chan) (ch : Chan) : Except TrapInfo Done :=
  match f ch with
  | .error e => .error e
  | .ok ch => .ok (.seq ch)

/-- UNDEF with a cause of R205. -/
def undef (cause : Nat) : TrapInfo := { vec := 1, cause := cause, addr := 0 }

end Sys2Proof.Machine
end

