-- ==== Sys2Proof/Machine/StateHub.lean ====
section
/-! DEFINITION. The hub die: fuses, Cask, flash, boot, debug port, services, error log, power (13 to 17). -/

namespace Sys2Proof.Machine

/-- The fuses: the five fuses of each life-cycle step (R376), the steps of the floor thermometer whose valid fuse is
programmed, newest first (R371), the device secret, the Obsum key digest and key-encryption key, and the owner key
digest (R374, R377). A digest or key that is not programmed is `none`. -/
structure Fuses where
  lc           : Vector (BitVec 5) 4
  floor        : List Half
  deviceSecret : Option (BitVec 256)
  obsumDigest  : Option (BitVec 384)
  obsumKek     : Option (BitVec 256)
  ownerDigest  : Option (BitVec 384)
  deriving DecidableEq, Repr

/-- A debug password: its salt and hash (R381). -/
structure Password where
  salt : List Byte
  hash : BitVec 384
  deriving DecidableEq, Repr

/-- The owner's sealed material (R374, R377), with the life-cycle state under whose sealing key it is sealed. -/
structure Sealed where
  state    : Nat
  ownerKek : BitVec 256
  ownerKey : BitVec 384
  floor    : Half
  password : Option Password
  deriving DecidableEq, Repr

/-- The repair record of a channel (R406): the repair spares of DMEM, IMEM and each tun that are in use and whether testing
has stopped for want of one (R251), ARRAY_TUN_MAP, the unusable spare tuns and the spare columns in use (R59, R60), and the
HBM rows (R285). -/
structure Repairs where
  usedD     : Nat
  usedI     : Nat
  usedP     : Vector Nat 72
  outD      : Bool
  outI      : Bool
  tunMap    : Vector (BitVec 4) 8
  spareBad  : BitVec 8
  spareCols : Vector Nat 72
  rows      : List RepairRow
  deriving DecidableEq, Repr, Inhabited

/-- One copy of a record area (R366): its write counter, whether its CRC-32C passes, the sealed Cask record, the repair
records of the sixteen channels and the availability counts. `raw` are the bytes, by offset in the copy, that an external
programmer has put over it since the Maltster wrote it, the newest first (R435). (DESIGN CHOICE, log 75) -/
structure RecordCopy where
  counter : Word
  crcOk   : Bool
  sealedRec : Option Sealed
  repairs : Vector Repairs 16
  up      : BitVec 64
  down    : BitVec 64
  planned : BitVec 64
  raw     : List (Nat × Byte)
  deriving DecidableEq, Repr, Inhabited

/-- One flash device (R364): its bytes from 0 below the record area, and the two copies of its record area. -/
structure Flash where
  bytes   : List (Nat × Byte)
  records : Vector RecordCopy 2
  deriving DecidableEq, Repr

/-- An unlock challenge (R382). -/
structure UnlockChallenge where
  nonce  : BitVec 384
  state  : Nat
  level  : BitVec 2
  floor  : Half
  issued : BitVec 64
  used   : Bool
  deriving DecidableEq, Repr

/-- The Cask (R374, R375). `derives` says that the key engine derives keys; a tamper wipe ends that until aux power is
removed. `attest` and `sealing` say that the attestation key and the sealing key (of a life-cycle state) are derived. -/
structure Cask where
  derives   : Bool
  obsumKek  : Option (BitVec 256)
  attest    : Bool
  sealing   : Option Nat
  owner     : Option Sealed
  challenge : Option UnlockChallenge
  pwFail    : Nat
  unlocked  : Bool
  deriving DecidableEq, Repr

/-- The configuration record in force (R373). -/
structure ConfigRec where
  addr   : Half
  dims   : Half
  tbRoot : Half
  ports  : Vector Byte 96
  modes  : Half
  sparge : Word
  deriving DecidableEq, Repr

/-- A container of the slot in use as Kiln recorded it at step 3 (R363, R367): its directory index, kind, generation,
target channels, offset, length and digest, and the first check of R369 that it failed, 0 when it passed. -/
structure Container where
  index  : Nat
  kind   : Half
  gen    : Half
  target : Half
  offset : Nat
  length : Nat
  digest : BitVec 384
  fail   : Nat
  deriving DecidableEq, Repr

/-- Start (R360 to R373): the last step completed, the slot in use, how its device is read (R365), the containers recorded
and the configuration. -/
structure Boot where
  step       : Nat
  slot       : Option Bool
  recovery   : Bool
  fail       : Byte
  read       : FlashRead
  seqNo      : Word
  containers : List Container
  config     : ConfigRec
  selfFail   : Bool
  deriving DecidableEq, Repr

/-- How the bypasses of the keg ports stand (R332, R335, R336). -/
inductive Bypass where
  | passive | retimed | opened
  deriving DecidableEq, Repr

/-- The internal rails (R412). -/
inductive Rail where
  | hubCore | hubIo | flash | link | hbmVpp | hbmVdd | vret | vsram | varr | vkeg | hbmVddq
  deriving DecidableEq, Repr

/-- Supplies and resets as the module sees them (R412 to R420, R429). `on` are the rails that are within 5 % of nominal, in
the order in which they rose, and `smbus` the SMBus address, as the straps gave it at aux power-up (R434). -/
structure Supply where
  aux       : Bool
  main      : Bool
  input     : Bool
  on        : List Rail
  smbus     : BitVec 7
  perst     : Bool
  bypass    : Bypass
  auxOnly   : Bool
  fatal     : Bool
  tampered  : Bool
  lidOpen   : Bool
  deriving DecidableEq, Repr

/-- The TAP and its debug mailbox (R383 to R385). `words` are the data words still awaited; `asked` says that a REG_WRITE
which asked for DOZE waits (R385, R417); `out` is what the last scan of a data register captured. -/
structure Dap where
  ir       : Byte
  cmd      : Word
  words    : Nat
  data     : List Word
  resp     : List Word
  result   : BitVec 4
  busy     : Bool
  asked    : Bool
  out      : BitVec 33
  level    : BitVec 2
  deriving DecidableEq, Repr

/-- A nonce of GET_NONCE (R389). -/
structure Nonce where
  value  : BitVec 384
  issued : BitVec 64
  used   : Bool
  deriving DecidableEq, Repr

/-- What the Maltster answers over MCTP (R387 to R389). -/
inductive Reply where
  | done
  | refused
  | notAbove
  | wouldBrick
  | exhausted
  | nonce (value : BitVec 384)
  | bytes (data : List Byte)
  deriving DecidableEq, Repr

/-- The Maltster's services: endpoint ID, whether a PLDM event receiver is configured, the SPDM version and digest algorithm
agreed, the nonces given that are not older than 60 s, the sparge start period, the slots marked EMPTY and written by an
update, the last answer, the messages that wait on MGMT_ALERT_N, and the MCTP messages that came over keg, each with the
channel that it came from (R330). -/
structure Services where
  eid      : Byte
  receiver : Bool
  spdm     : Nat
  agreed   : Bool
  given    : List Nonce
  sparge   : Word
  updating : Vector Bool 2
  reply    : Option Reply
  waiting  : List Reply
  keg      : List (Half × List Byte)
  deriving DecidableEq, Repr

/-- Telemetry (15, Registers): temperatures in 1/16 °C, power in mW, supply readings and counts. -/
structure Telemetry where
  temp      : Vector Word 16
  power     : Vector Word 16
  ce        : Vector Word 16
  ucc       : Vector Word 16
  fences    : Vector Word 16
  mv48      : Word
  ma48      : Word
  mv12      : Word
  hubTemp   : Word
  threshold : Word
  deriving DecidableEq, Repr

/-- The error log ring (R401) and the hub sources 16 to 23 (R23). -/
structure ErrLog where
  ring     : Vector (BitVec 128) 256
  head     : Word
  sources  : Vector Source 8
  deriving DecidableEq, Repr

/-- The host link (R341). `speed` is 1 to 6, or 0 when the link is down; `flit` is FLIT mode. -/
structure HostLink where
  speed    : BitVec 3
  width    : BitVec 5
  reversed : Bool
  flit     : Bool
  deriving DecidableEq, Repr

/-- The rate of TIMEBASE: nominal, or 100 ppm above or below it (R424). -/
inductive Rate where
  | nominal | fast | slow
  deriving DecidableEq, Repr

/-- TIMEBASE of the module (R423, R424). `rate` is the rate that it counts at, and `since` the nanoseconds since the last
measurement of R331. -/
structure TimeBase where
  count    : BitVec 64
  rate     : Rate
  since    : Nat
  locked   : Bool
  holdover : Bool
  hops     : BitVec 5
  deriving DecidableEq, Repr

/-- The hub die. `ready` is MOD_STAT.CH_READY. `held` are the channels fenced for good by R61, `heldStart` those held until
the next module start (R397), `untrained` those whose HBM failed to train at their last start. `loaded` and `milled` are the
channels whose start steps 5 to 7, and 8, have ended. `returnDue` says that a lid tamper was latched in DEPLOYED, so that
the next start moves to RETURNED (R379). `served` are the bytes that an external programmer last read at the flash service
contacts (R435). (DESIGN CHOICE, log 10) -/
structure Hub where
  fuses     : Fuses
  cask      : Cask
  flash     : Vector Flash 2
  boot      : Boot
  supply    : Supply
  tamper    : BitVec 5
  dap       : Dap
  services  : Services
  log       : ErrLog
  telemetry : Telemetry
  link      : HostLink
  pf0       : Fn
  ready     : BitVec 16
  held      : BitVec 16
  heldStart : BitVec 16
  heldTrain : BitVec 16
  untrained : BitVec 16
  loaded    : BitVec 16
  milled    : BitVec 16
  returnDue : Bool
  fenceTimes : Vector (List (BitVec 64)) 16
  planned   : Bool
  availUp   : BitVec 64
  availDown : BitVec 64
  availPlan : BitVec 64
  latchUp   : Word
  latchDown : Word
  latchPlan : Word
  timebase  : TimeBase
  served    : List Byte
  nonces    : Nat
  deriving DecidableEq, Repr

end Sys2Proof.Machine
end

