-- ==== Sys2Proof/Machine/State.lean ====
section
/-! DEFINITION. The whole machine state, what stops a step, and the state right after power is first connected. -/

namespace Sys2Proof.Machine

/-- The whole module: the commands that wait, first in first out, the sixteen channels and the hub die.
(DESIGN CHOICE, log 107) -/
structure State where
  pending : List Instr
  chans   : Vector Chan 16
  hub     : Hub
  deriving DecidableEq, Repr

/-- Why the machine stops. No command of the block stops it, so there is no constructor. -/
inductive Fault where
  deriving DecidableEq, Repr

/-- Why a command has no meaning. -/
inductive Refusal where
  /-- Raised by an arm of `exec` whose command is not modelled. Safe: the model stops where the hardware goes on. -/
  | notModelled (mnemonic : String)
  deriving DecidableEq, Repr

/-! ### The channel at reset (R31, R171, R231, R235, R281) -/

/-- The controller at channel restart (R171). -/
def Ctl.reset : Ctl where
  pc := 0
  ds := []
  rs := []
  dsp := 0
  dspBase := 0
  dspLimit := 0
  rsp := 0
  rspBase := 0
  rspLimit := 0
  a := Vector.replicate 8 0
  n := false
  z := false
  c := false
  v := false
  vff := false
  ie := false
  inmchk := false
  repact := false
  ypend := false
  depth := 0
  levels := Vector.replicate 4 { ls := 0, le := 0, lc := 0 }
  repc := 0
  vl := 0
  vs := []
  fpctl := 0

/-- Trap records and pending events at channel restart (R191, R197). -/
def Events.reset : Events where
  trapCause := 0
  trapAddr := 0
  intPend := 0
  intEn := 0
  mchk := []
  brkDebug := false
  stepArmed := false
  brkStep := false
  array := none
  hold := false
  wait := none
  yieldAns := none
  doorbells := []
  rung := []

/-- Sparge of one memory at channel restart (R254). -/
def SpargeMem.reset : SpargeMem where
  phase := 0
  starved := false
  region := 0
  done := 0
  other := Vector.replicate 64 .old
  found := []

/-- IMEM, DMEM, retention and sparge at channel restart (R231, R235; 09, Registers). The repair spares are the records
of an unrepaired module. -/
def ChanMem.reset : ChanMem where
  imem := []
  dmem := []
  imarks := []
  dmarks := []
  imemCe := 0
  dmemCe := 0
  lostHost := 0
  lostRack := 0
  planeRet := false
  waking := false
  imemWait := false
  fetchBuf := []
  spD := SpargeMem.reset
  spI := SpargeMem.reset
  spP := SpargeMem.reset
  usedD := 0
  usedI := 0
  usedP := Vector.replicate 72 0
  outD := false
  outI := false

/-- PEs, planes and edges at channel restart (R31; 02, Registers). ARRAY_TUN_MAP reads 8 in a row without a repair. -/
def Arr.reset : Arr where
  c := 0
  m := sheetConst true
  x := 0
  t := 0
  planes := []
  marks := []
  writeback := []
  planeCe := 0
  edgeCtl := 0
  edges := Vector.replicate 4 { buf := [], outstanding := 0 }
  stall := false
  short := false
  stallLimit := 0x01000000
  tunMap := Vector.replicate 8 8
  spareBad := 0
  spareCols := Vector.replicate 72 0
  staging := []
  verify := []

/-- Sequencers and microstore at channel restart (03, Registers), with no image loaded. (DESIGN CHOICE, log 6) -/
def Seq.reset : Seq where
  queue := []
  stop := false
  issueCause := 0
  stepcount := 0
  stepLatch := 0
  cur := none
  resumed := false
  waiting := false
  ustore := []
  rtab := []
  ustoreId := 0
  ustoreCe := 0
  umarks := []
  badSig := 0
  planeIdle := true
  idleUsed := 0

/-- Micro-traps at channel restart (04, Registers). -/
def Trap.reset : Trap where
  state := 0
  cause := 0
  sub := 0
  ffield := 0
  nosave := false
  mgmt := false
  repairSet := false
  ystat := 0
  rstat := 0
  save := Vector.replicate 20 0
  save2 := Vector.replicate 20 0
  saveSeed := 0
  saveDraw := 0
  holds := Vector.replicate 4 0
  drain := none
  yreq := none

/-- A split register at channel restart (R94, R150). -/
def Split.reset : Split where
  value := 0
  held := none
  latch := 0

/-- Format descriptors and flags at channel restart (05, Registers): GFD cell A is 0x80, ARRAY_SR_ORIGIN the channel's
own coordinate (R141). -/
def Fmt.reset (origin : Half) : Fmt where
  gfdA := Vector.replicate 16 0x80
  gfdB := Vector.replicate 16 0
  seed := Split.reset
  epoch := Split.reset
  flags := 0
  origin := origin

/-- The lauter root at channel restart (06): LPOS 2,176 and LSTEP +1, the accumulators 0. -/
def Lau.reset : Lau where
  la := 0
  stat := 0
  lpos := 2176
  lstep := 0
  bank := 0
  bankStat := 0
  rxCount := 0
  snap := 0
  events := 0
  gor := 0
  gors := []
  roots := []
  shown := []
  expect := 0
  xdest := Vector.replicate 8 0
  lres := 0
  lround := 0
  imageNo := 0

/-- A queue pair at channel restart (10, Registers): PRIO and RQ_MOD.COUNT are 1. -/
def QP.reset : QP where
  sqdb := 0
  cqdb := 0
  enable := false
  dmemRing := false
  log2 := 0
  ordered := false
  prio := true
  irqTgt := false
  irqEn := false
  dberr := false
  cfgerr := false
  baseLo := 0
  baseHi := 0
  sqHead := 0
  cqTail := 0
  modCount := 1
  modTime := 0
  tailS := 0
  headS := 0
  phase := true
  stopped := false
  counted := 0
  waited := 0

/-- The racking engine at channel restart (R281; 10, Registers). (DESIGN CHOICE, log 6) -/
def Rack.reset : Rack where
  qps := Vector.replicate 256 QP.reset
  entries := []
  posting := []
  notes := []
  inbound := 0
  inwin := 0x3FFF0000
  rtimeout := 100000
  rr0 := 0
  rr1 := 0
  inq := []
  images := []
  responses := []
  mgmt := []
  held := []
  xtags := []

/-- The HBM stack before training (10, Registers). -/
def Hbm.reset : Hbm where
  bytes := []
  marks := []
  trained := false
  lanes := 0
  record := []
  ce := 0
  ue := 0
  passes := 0
  rowCes := []
  refresh := false

/-- The Mill with no image (11, Registers): URESET is 1. -/
def Mill.reset : Mill where
  state := .none
  scrubErr := false
  parityErr := false
  failcode := 0
  ureset := true
  loaded := none
  image := none
  cfg := []
  ffs := 0
  ram := []
  ramOut := Vector.replicate 64 0
  ureg := Vector.replicate 16 0
  events := 0
  tapCtl := 0
  sigdet := false
  lock := false
  lockLost := false
  sigdetChg := false
  prbsErr := 0
  rx := 0
  tx := none
  prbs := 0
  scrub := 0
  scrubAt := 0
  checks := 0
  jobs := []

/-- A keg port that has negotiated nothing (12, Registers), with the default configuration byte 0x01 of R373. -/
def Port.reset : Port where
  enable := true
  maxRate := 0
  maxLanes := 0
  fecOffOk := false
  edgeAny := false
  edgeOn := false
  state := .down
  low := none
  rate := 0
  lanes := 0
  active := 0
  spare := 0
  spareUsed := false
  fec := false
  version := 0
  bypHops := 0
  pstate := 7
  pmismatch := false
  pchg := false
  renegd := false
  downev := false
  partner := 0
  pvalid := false
  psession := none
  pknown := 0
  replays := 0
  fecUncorr := 0

/-- A port's link state after R322, with the credits of the flit buffers of R325. -/
def Link.reset : Link where
  seqNext := 0
  expected := 0
  nak := false
  replay := []
  unsent := []
  wire := []
  replayed := 0
  txEdges := []
  edgeFlits := []
  pktFlits := []
  ecred := 0
  vcGrant := 0
  vcCred := #v[64, 16, 64, 16]
  rxEdge := []
  rxDeep := false
  rxSlots := []
  rxVc0 := []
  rxVc1 := []
  rxPackets := []
  tx := []
  turn := false
  limited := false
  ask := false
  owe := false
  heard := none

/-- The global channel address of channel `n` of a module (R11): gx, gy and gz from the module address and the
channel's patch position. -/
def globalAddr (module : Half) (n : Nat) : Half :=
  let gx := 4 * fld module 8 4 + n % 4
  let gy := 4 * fld module 4 4 + n / 4
  BitVec.ofNat 16 (gx <<< 10 ||| gy <<< 4 ||| fld module 0 4)

/-- The keg block of channel `n` in a module with the default configuration record (R373). -/
def Keg.reset (n : Nat) : Keg where
  ports := Vector.replicate 6 Port.reset
  links := Vector.replicate 6 Link.reset
  owed := []
  own := globalAddr 0 n
  addr := globalAddr 0 n
  nxm1 := 0
  nym1 := 0
  nzm1 := 0
  session := 0
  xfail := false
  discard := false
  discards := 0
  downLimit := 10000

/-- A function's AER state after a configuration reset (R354): Uncorrectable Internal Error is non-fatal by default, the link
errors are fatal.
(PRESUMED, log 7) -/
def Aer.reset : Aer where
  corInternal := false
  uncInternal := false
  poisoned := false
  unsupported := false
  timeout := false
  link := 0
  linkCor := 0
  maskCor := 0
  maskUnc := 0
  severity := 0x70

/-- A PCIe function after a configuration reset (R357): every vector masked, every enable 0. (PRESUMED, log 7) -/
def Fn.reset : Fn where
  mse := false
  bme := false
  d3 := false
  msixEn := false
  funcMask := false
  relaxed := true
  maxPayload := 0
  maxRead := 2
  ecrcGen := false
  ecrcChk := false
  aspm := 0
  ctoRange := 0
  errEn := 0
  bar0 := 0
  bar2 := 0
  table := []
  pba := []
  aer := Aer.reset
  retry := true
  out := []

/-- HWIN_BASE and the mailboxes at channel restart (13, Registers). -/
def HostRegs.reset : HostRegs where
  hwin := 0
  h2c := 0
  c2h := 0

/-- Power control and compare units at channel restart (16, Registers): AUTO_IDLE is 1. -/
def Pwr.reset : Pwr where
  autoIdle := true
  tbWake := false
  reqCtl := false
  reqHost := false
  wake := 0
  last := false
  cmp0 := 0
  cmp1 := 0
  arm0 := false
  arm1 := false
  tbHi := 0
  stepped := false
  woken := false

/-- An empty report source (R24). -/
def Source.reset : Source where
  queue := []
  waiting := []
  dropped := 0

/-- Error summary, service mode and capture registers at channel restart (15, Registers). -/
def Err.reset : Err where
  src := Source.reset
  ce := false
  ucc := false
  partnerFenced := false
  lastCode := 0
  detail := 0
  mode := 0
  solo := false
  copies := []
  pair := engineOf Fn.reset
  capFreeze := false
  capStep := 0
  capU := 0
  capState := 0
  capLate := false

/-- Channel `n` of a module without power; CF_STAT.CSTATE is STARTING (13, Registers). (DESIGN CHOICE, log 110) -/
def Chan.reset (n : Nat) : Chan where
  cstate := .starting
  ctl := Ctl.reset
  ev := Events.reset
  mem := ChanMem.reset
  arr := Arr.reset
  seq := Seq.reset
  trap := Trap.reset
  fmt := Fmt.reset (globalAddr 0 n)
  lau := Lau.reset
  rack := Rack.reset
  hbm := Hbm.reset
  mill := Mill.reset
  keg := Keg.reset n
  fn := Fn.reset
  host := HostRegs.reset
  pwr := Pwr.reset
  err := Err.reset
  shadow := none
  free := 0

/-! ### The hub at reset -/

/-- The configuration record's defaults (R373). -/
def ConfigRec.default : ConfigRec where
  addr := 0
  dims := 0
  tbRoot := 0
  ports := Vector.replicate 96 0x01
  modes := 0
  sparge := 2000

/-- The repair record of a channel without repairs. -/
def Repairs.none : Repairs where
  usedD := 0
  usedI := 0
  usedP := Vector.replicate 72 0
  outD := false
  outI := false
  tunMap := Vector.replicate 8 8
  spareBad := 0
  spareCols := Vector.replicate 72 0
  rows := []

/-- A record copy that nothing has written: its CRC does not pass. -/
def RecordCopy.blank : RecordCopy where
  counter := 0
  crcOk := false
  sealedRec := .none
  repairs := Vector.replicate 16 Repairs.none
  up := 0
  down := 0
  planned := 0
  raw := []

/-- The Cask without power (R374). -/
def Cask.reset : Cask where
  derives := true
  obsumKek := none
  attest := false
  sealing := none
  owner := none
  challenge := none
  pwFail := 0
  unlocked := false

/-- The debug mailbox when the TAP is reset; IDCODE is the instruction after a TAP reset (IEEE 1149.1).
(PRESUMED, log 8) -/
def Dap.reset : Dap where
  ir := 0x02
  cmd := 0
  words := 0
  data := []
  resp := []
  result := 0
  busy := false
  asked := false
  out := 0
  level := 0

/-- The services when the Maltster starts. -/
def Services.reset : Services where
  eid := 0
  receiver := false
  spdm := 0
  agreed := false
  given := []
  sparge := 2000
  updating := Vector.replicate 2 false
  reply := none
  waiting := []
  keg := []

/-- Start before step 1 (14, Registers). -/
def Boot.reset : Boot where
  step := 0
  slot := none
  recovery := false
  fail := 0
  read := { mode := .m111, addr := .read13, mhz := 0, quad := none }
  seqNo := 0
  containers := []
  config := ConfigRec.default
  selfFail := false

/-- Telemetry at a module start; the threshold is 95 °C in units of 1/16 °C (15, Registers). -/
def Telemetry.reset : Telemetry where
  temp := Vector.replicate 16 0
  power := Vector.replicate 16 0
  ce := Vector.replicate 16 0
  ucc := Vector.replicate 16 0
  fences := Vector.replicate 16 0
  mv48 := 0
  ma48 := 0
  mv12 := 0
  hubTemp := 0
  threshold := 1520

/-- An empty error log (R421). -/
def ErrLog.reset : ErrLog where
  ring := Vector.replicate 256 0
  head := 0
  sources := Vector.replicate 8 Source.reset

/-- TIMEBASE at aux power-up (R424). -/
def TimeBase.reset : TimeBase where
  count := 0
  rate := .nominal
  since := 0
  locked := false
  holdover := false
  hops := 0

/-- The hub of a module as manufactured, without power: fuses blank, flash devices empty, PERST_N asserted by its
pull-down (R434), the 48 V input switch closed. (DESIGN CHOICE, log 110) -/
def Hub.reset : Hub where
  fuses := {
    lc := Vector.replicate 4 0, floor := [], deviceSecret := none, obsumDigest := none, obsumKek := none
    ownerDigest := none }
  cask := Cask.reset
  flash := Vector.replicate 2 { bytes := [], records := Vector.replicate 2 RecordCopy.blank }
  boot := Boot.reset
  supply := {
    aux := false, main := false, input := true, on := [], smbus := 0, perst := true, bypass := .passive, auxOnly := false
    fatal := false, tampered := false, lidOpen := false }
  tamper := 0
  dap := Dap.reset
  services := Services.reset
  log := ErrLog.reset
  telemetry := Telemetry.reset
  link := { speed := 0, width := 0, reversed := false, flit := false }
  pf0 := Fn.reset
  ready := 0
  held := 0
  heldStart := 0
  heldTrain := 0
  untrained := 0
  loaded := 0
  milled := 0
  returnDue := false
  fenceTimes := Vector.replicate 16 []
  planned := false
  availUp := 0
  availDown := 0
  availPlan := 0
  latchUp := 0
  latchDown := 0
  latchPlan := 0
  timebase := TimeBase.reset
  served := []
  nonces := 0

/-- The machine before power is first connected, with every register at the value the spec gives it for reset. -/
def State.reset : State where
  pending := []
  chans := Vector.ofFn fun n => Chan.reset n.val
  hub := Hub.reset

end Sys2Proof.Machine
end

