-- ==== Sys2Proof/Machine/Lift.lean ====
section
/-! DEFINITION. How a command's effect on one channel, or on the hub, becomes an effect on the whole machine, and the record areas
in flash. -/

namespace Sys2Proof.Machine

/-- A channel of the machine. -/
def State.chan (s : State) (c : Ch) : Chan := s.chans[c.val]

/-- The machine with one channel replaced. -/
def State.setChan (s : State) (c : Ch) (x : Chan) : State := { s with chans := s.chans.set c.val x }

/-- All sixteen channels. -/
def allChans : List Ch := List.finRange 16

/-- The other channel of a pair (R404). -/
def partnerOf (c : Ch) : Ch := if c.val % 2 = 0 then c + 1 else c - 1

/-- A command that acts on one channel. -/
def onChan (c : Ch) (f : Chan → Chan) (s : State) : Host.Outcome State Fault Refusal :=
  .next (s.setChan c (f (s.chan c)))

/-- A command that acts on the hub. -/
def onHub (f : Hub → Hub) (s : State) : Host.Outcome State Fault Refusal := .next { s with hub := f s.hub }

/-- A command that acts on one channel and the hub. -/
def onBoth (c : Ch) (f : Chan → Hub → Chan × Hub) (s : State) : Host.Outcome State Fault Refusal :=
  let r := f (s.chan c) s.hub
  .next { s.setChan c r.1 with hub := r.2 }

/-- The module's management works: aux power is valid and start step 2 has passed (R360, R362). (DEDUCED, log 100) -/
def managed (h : Hub) : Bool := h.supply.aux && decide (h.boot.step ≥ 2)

/-! ### Record areas (R366, R406) -/

/-- The copy of one device that would be used: the one with the higher counter whose CRC passes. -/
def bestCopy (v : Vector RecordCopy 2) : Option RecordCopy :=
  if v[0].crcOk && (!v[1].crcOk || decide (v[1].counter.toNat ≤ v[0].counter.toNat)) then some v[0]
  else if v[1].crcOk then some v[1] else none

/-- The record in force: device A's, or device B's when neither copy of device A passes. -/
def recordNow (h : Hub) : RecordCopy :=
  match bestCopy h.flash[0].records with
  | some r => r
  | none => (bestCopy h.flash[1].records).getD RecordCopy.blank

/-- The two copies are written alternately: a new one replaces the copy that is not in force. -/
def writeCopy (r : RecordCopy) (v : Vector RecordCopy 2) : Vector RecordCopy 2 :=
  if v[0].crcOk && (!v[1].crcOk || decide (v[1].counter.toNat ≤ v[0].counter.toNat)) then v.set 1 r else v.set 0 r

/-- Write the record area with a change of the record in force, and the availability counts. The spec does not say on which
device; the model writes both alike. (DESIGN CHOICE, log 75) -/
def writeArea (h : Hub) (f : RecordCopy → RecordCopy) : Hub :=
  let old := recordNow h
  let r := f { old with
    counter := old.counter + 1, crcOk := true, up := h.availUp, down := h.availDown, planned := h.availPlan, raw := [] }
  { h with flash := h.flash.map fun x => { x with records := writeCopy r x.records } }

/-- Write the record area with a sealed record. -/
def writeRecord (h : Hub) (sealedRec : Option Sealed) : Hub := writeArea h fun r => { r with sealedRec := sealedRec }

/-- The sealed record goes from both copies of both devices (R376). -/
def eraseSealed (h : Hub) : Hub :=
  { h with flash := h.flash.map fun f => { f with records := f.records.map fun r => { r with sealedRec := none } } }

/-- Write the record area with the sealed record that it holds. -/
def saveRecord (h : Hub) : Hub := writeArea h id

/-- The repairs of a channel as it holds them. -/
def repairsOf (ch : Chan) : Repairs where
  usedD := ch.mem.usedD
  usedI := ch.mem.usedI
  usedP := ch.mem.usedP
  outD := ch.mem.outD
  outI := ch.mem.outI
  tunMap := ch.arr.tunMap
  spareBad := ch.arr.spareBad
  spareCols := ch.arr.spareCols
  rows := ch.hbm.record

/-- A channel takes its repairs. -/
def withRepairs (r : Repairs) (ch : Chan) : Chan :=
  { ch with
    mem := { ch.mem with usedD := r.usedD, usedI := r.usedI, usedP := r.usedP, outD := r.outD, outI := r.outI }
    arr := { ch.arr with tunMap := r.tunMap, spareBad := r.spareBad, spareCols := r.spareCols }
    hbm := { ch.hbm with record := r.rows } }

/-- The repairs that the record in force gives a channel. -/
def recorded (h : Hub) (c : Ch) : Repairs := (recordNow h).repairs[c]

/-- A repair of a channel is recorded in the record area (R406). (DESIGN CHOICE, log 75) -/
def recordRepairs (c : Ch) (ch : Chan) (h : Hub) : Hub :=
  if repairsOf ch = recorded h c then h else writeArea h fun r => { r with repairs := r.repairs.set c (repairsOf ch) }

end Sys2Proof.Machine
end

