-- ==== Sys2Proof/Machine/Flags.lean ====
section
/-! DEFINITION. Every flag computation of the controller (R180, R211 to R213, R220). -/

namespace Sys2Proof.Machine

/-- N is bit 31 of the result and Z is 1 when the result is 0 (R180). -/
def flagsNZ (t : Ctl) (r : Word) : Ctl := { t with n := bit r 31, z := decide (r = 0#32) }

/-- The sum a + b + carry-in with N, Z, the carry out of bit 31 and two's-complement overflow (R180, R211). -/
def addFlags (t : Ctl) (a b : Word) (cin : Bool) : Word × Ctl :=
  let full := a.toNat + b.toNat + b2n cin
  let r := BitVec.ofNat 32 full
  (r, { flagsNZ t r with
    c := decide (full ≥ 2 ^ 32)
    v := decide (a.toInt + b.toInt + (b2n cin : Nat) ≠ r.toInt) })

/-- The difference a − b − (1 − carry-in); C is 1 when no borrow occurs (R180, R211). -/
def subFlags (t : Ctl) (a b : Word) (cin : Bool) : Word × Ctl :=
  let borrow := b2n (!cin)
  let r := a - b - BitVec.ofNat 32 borrow
  (r, { flagsNZ t r with
    c := decide (a.toNat ≥ b.toNat + borrow)
    v := decide (a.toInt - b.toInt - (borrow : Nat) ≠ r.toInt) })

/-- NZ and C of a shift or rotate; `c` is none where C is unchanged (R212). -/
def flagsNZC (t : Ctl) (r : Word) (c : Option Bool) : Ctl := { flagsNZ t r with c := c.getD t.c }

/-- SHL by a 32-bit unsigned count (R212). -/
def shlBy (x : Word) (n : Nat) : Word × Option Bool :=
  if n = 0 then (x, none)
  else if n ≤ 32 then (x <<< n, some (bit x (32 - n)))
  else (0#32, some false)

/-- SHR, logical, by a 32-bit unsigned count (R212). -/
def shrBy (x : Word) (n : Nat) : Word × Option Bool :=
  if n = 0 then (x, none)
  else if n ≤ 32 then (x >>> n, some (bit x (n - 1)))
  else (0#32, some false)

/-- SAR, arithmetic, by a 32-bit unsigned count (R212). -/
def sarBy (x : Word) (n : Nat) : Word × Option Bool :=
  if n = 0 then (x, none)
  else if n < 32 then (x.sshiftRight n, some (bit x (n - 1)))
  else (x.sshiftRight 31, some (bit x 31))

/-- ROL by the count modulo 32; a multiple of 32 leaves C unchanged (R212). -/
def rolBy (x : Word) (n : Nat) : Word × Option Bool :=
  if n % 32 = 0 then (x, none)
  else
    let r := x.rotateLeft (n % 32)
    (r, some (bit r 0))

/-- ROR by the count modulo 32; a multiple of 32 leaves C unchanged (R212). -/
def rorBy (x : Word) (n : Nat) : Word × Option Bool :=
  if n % 32 = 0 then (x, none)
  else
    let r := x.rotateRight (n % 32)
    (r, some (bit r 31))

/-- NZ of a 64-bit product: N is bit 63 and Z is 1 when all 64 bits are 0 (R213). -/
def flagsNZ64 (t : Ctl) (p : BitVec 64) : Ctl := { t with n := bit p 63, z := decide (p = 0#64) }

/-- NZV of a division: N and Z follow the quotient (R213). -/
def flagsDiv (t : Ctl) (q : Word) (v : Bool) : Ctl := { flagsNZ t q with v := v }

/-- The relation that FCMP finds (R220). -/
inductive Relation where
  | lt | eq | gt | unordered
  deriving DecidableEq, Repr

/-- FCMP's flags (R220). -/
def flagsRel (t : Ctl) (r : Relation) : Ctl :=
  match r with
  | .lt => { t with n := true, z := false, c := false, v := false }
  | .eq => { t with n := false, z := true, c := true, v := false }
  | .gt => { t with n := false, z := false, c := true, v := false }
  | .unordered => { t with n := false, z := false, c := false, v := true }

/-- The condition codes of R181. -/
def condHolds (t : Ctl) (c : BitVec 4) : Bool :=
  match c.toNat with
  | 0 => t.z
  | 1 => !t.z
  | 2 => t.c
  | 3 => !t.c
  | 4 => t.n
  | 5 => !t.n
  | 6 => t.v
  | 7 => !t.v
  | 8 => t.c && !t.z
  | 9 => !t.c || t.z
  | 10 => t.n == t.v
  | 11 => t.n != t.v
  | 12 => !t.z && (t.n == t.v)
  | 13 => t.z || (t.n != t.v)
  | 14 => t.vff
  | _ => !t.vff

end Sys2Proof.Machine
end

