-- ==== Sys2Proof/Machine/Float.lean ====
section
/-! DEFINITION. The floating-point policy of the module (R116, R128 to R138, R148, R149), for every format that a
descriptor can describe; the array, LROUND and the controller share it (R135). -/

namespace Sys2Proof.Machine

/-- A floating format with its rounding: exponent and fraction widths, bias, SUBN flush, the mode of R137, and the
draw of stochastic rounding (R138). -/
structure FFmt where
  e     : Nat
  f     : Nat
  bias  : Nat
  flush : Bool
  rm    : Nat
  draw  : Nat
  deriving DecidableEq, Repr

/-- The six flags of R130 as a mask: NV, DZ, OF, UF, NX, BD in bits 0 to 5. -/
abbrev FFlags := BitVec 6

def fNV : FFlags := 1#6
def fDZ : FFlags := 2#6
def fOF : FFlags := 4#6
def fUF : FFlags := 8#6
def fNX : FFlags := 16#6
def fBD : FFlags := 32#6

/-- The value of an operand: a NaN, an infinity, or (−1)^s × m × 2^ex (R116). -/
inductive FVal where
  | nan (signaling : Bool)
  | inf (s : Bool)
  | fin (s : Bool) (m : Nat) (ex : Int)
  deriving DecidableEq, Repr

/-- The width of a format. -/
def fWidth (q : FFmt) : Nat := q.e + q.f + 1

/-- The smallest normal exponent, 1 − B (R116). -/
def fEmin (q : FFmt) : Int := 1 - (q.bias : Int)

/-- The largest exponent, 2^e − 2 − B (R116). -/
def fEmax (q : FFmt) : Int := (2 ^ q.e : Nat) - 2 - (q.bias : Int)

/-- A zero of a sign. -/
def fZero (q : FFmt) (s : Bool) : Nat := if s then 2 ^ (q.e + q.f) else 0

/-- An infinity of a sign. -/
def fInf (q : FFmt) (s : Bool) : Nat := fZero q s + (2 ^ q.e - 1) * 2 ^ q.f

/-- MAX with a sign (R116). -/
def fMax (q : FFmt) (s : Bool) : Nat := fZero q s + ((2 ^ q.e - 2) * 2 ^ q.f + (2 ^ q.f - 1))

/-- The canonical NaN: sign 0, exponent all ones, fraction bit f − 1 set (R129). -/
def fNan (q : FFmt) : Nat := (2 ^ q.e - 1) * 2 ^ q.f + 2 ^ (q.f - 1)

/-- Read an encoding (R116); a subnormal is read as a zero of its sign under flush, which raises BD (R133). -/
def fRead (q : FFmt) (x : Nat) : FVal × FFlags :=
  let s := decide (x / 2 ^ (q.e + q.f) % 2 = 1)
  let ef := x / 2 ^ q.f % 2 ^ q.e
  let fr := x % 2 ^ q.f
  if ef = 2 ^ q.e - 1 then
    if fr = 0 then (.inf s, 0) else (.nan (decide (fr / 2 ^ (q.f - 1) % 2 = 0)), 0)
  else if ef = 0 then
    if fr ≠ 0 ∧ q.flush = true then (.fin s 0 0, fBD) else (.fin s fr (fEmin q - q.f), 0)
  else (.fin s (2 ^ q.f + fr) ((ef : Int) - q.bias - q.f), 0)

/-- Round the magnitude m + tail (0 ≤ tail < 1, not 0 when `sticky`) at bit `drop` under a mode (R137, R138). The
answer is the rounded quotient and whether bits were lost. Where `sticky` is set, `drop` is at least 1. -/
def roundAt (rm draw : Nat) (neg : Bool) (m : Nat) (sticky : Bool) (drop : Nat) : Nat × Bool :=
  let q := m / 2 ^ drop
  let rest := m % 2 ^ drop
  let inexact := decide (rest ≠ 0) || sticky
  let twice := 2 * rest
  let above := decide (twice > 2 ^ drop) || (decide (twice = 2 ^ drop) && sticky)
  let tie := decide (twice = 2 ^ drop) && !sticky
  let up :=
    match rm with
    | 0 => above || (tie && decide (q % 2 = 1))
    | 1 => false
    | 2 => inexact && !neg
    | 3 => inexact && neg
    | 4 => above || tie
    | _ => inexact && decide (rest * 2 ^ 32 / 2 ^ drop + draw ≥ 2 ^ 32)
  (q + b2n up, inexact)

/-- Round a magnitude m × 2^ex at the bit of weight 2^k: the integer multiple of 2^k, and whether bits were lost. -/
def roundTo (rm draw : Nat) (neg : Bool) (m : Nat) (ex : Int) (sticky : Bool) (k : Int) : Nat × Bool :=
  if ex < k then roundAt rm draw neg m sticky (k - ex).toNat
  else (m * 2 ^ (ex - k).toNat, sticky)

/-- Deliver a nonzero exact magnitude m × 2^ex in a format: overflow, tininess and flush as R130 to R133 state. -/
def fRound (q : FFmt) (s : Bool) (m : Nat) (ex : Int) (sticky : Bool) : Nat × FFlags :=
  let top : Int := (Nat.log2 m : Int) + ex
  let unb := roundTo q.rm q.draw s m ex sticky (top - q.f)
  let carry := decide (unb.1 ≥ 2 ^ (q.f + 1))
  let e' : Int := top + (b2n carry : Nat)
  if e' > fEmax q then
    let toMax := match q.rm with
      | 1 => true
      | 2 => s
      | 3 => !s
      | _ => false
    (if toMax then fMax q s else fInf q s, fOF ||| fNX)
  else if e' < fEmin q then
    if q.flush then (fZero q s, fUF ||| fNX)
    else
      let sub := roundTo q.rm q.draw s m ex sticky (fEmin q - q.f)
      (fZero q s + sub.1, if sub.2 then fUF ||| fNX else 0)
  else
    let frac := if carry then unb.1 / 2 else unb.1
    (fZero q s + ((e' + q.bias).toNat * 2 ^ q.f + (frac - 2 ^ q.f)), if unb.2 then fNX else 0)

/-- Deliver an exact finite value; a zero takes the sign given (R134). -/
def fDeliver (q : FFmt) (s : Bool) (m : Nat) (ex : Int) (sticky zeroSign : Bool) : Nat × FFlags :=
  if m = 0 ∧ sticky = false then (fZero q zeroSign, 0) else fRound q s m ex sticky

/-- The signed integer of a finite value over the unit 2^k, for k at or below its exponent. -/
def fInt (s : Bool) (m : Nat) (ex k : Int) : Int :=
  let v : Int := ((m * 2 ^ (ex - k).toNat : Nat) : Int)
  if s then -v else v

/-- The sum of two finite values, with the zero rule of R134. -/
def fSumFin (q : FFmt) (sa : Bool) (ma : Nat) (ea : Int) (sb : Bool) (mb : Nat) (eb : Int) : Nat × FFlags :=
  let k := min ea eb
  let t := fInt sa ma ea k + fInt sb mb eb k
  let zs := if ma = 0 ∧ mb = 0 ∧ sa = sb then sa else decide (q.rm = 3)
  fDeliver q (decide (t < 0)) t.natAbs k false zs

/-- A NaN result of operands already read: NV when one is signaling (R129). (DESIGN CHOICE, log 116) -/
def fNanResult (q : FFmt) (sig : Bool) (bd : FFlags) : Nat × FFlags := (fNan q, (if sig then fNV else 0) ||| bd)

/-- An invalid operation: the canonical NaN and NV, with BD when an operand was flushed (R130). -/
def fInvalid (q : FFmt) (bd : FFlags) : Nat × FFlags := (fNan q, fNV ||| bd)

def isSnan : FVal → Bool
  | .nan s => s
  | _ => false

def isNan : FVal → Bool
  | .nan _ => true
  | _ => false

/-- Add BD to a delivered result. -/
def withBd (bd : FFlags) (r : Nat × FFlags) : Nat × FFlags := (r.1, r.2 ||| bd)

/-- Negate an operand's sign bit. -/
def fFlip (q : FFmt) (x : Nat) : Nat :=
  if x / 2 ^ (q.e + q.f) % 2 = 1 then x - 2 ^ (q.e + q.f) else x + 2 ^ (q.e + q.f)

/-- The sum of two read operands. -/
def fAddVal (q : FFmt) (a b : FVal) (bd : FFlags) : Nat × FFlags :=
  if isSnan a || isSnan b then fNanResult q true bd
  else
    match a, b with
    | .nan _, _ => fNanResult q false bd
    | _, .nan _ => fNanResult q false bd
    | .inf sa, .inf sb => if sa = sb then (fInf q sa, bd) else fInvalid q bd
    | .inf sa, _ => (fInf q sa, bd)
    | _, .inf sb => (fInf q sb, bd)
    | .fin sa ma ea, .fin sb mb eb => withBd bd (fSumFin q sa ma ea sb mb eb)

/-- a + b. -/
def fAdd (q : FFmt) (x y : Nat) : Nat × FFlags :=
  fAddVal q (fRead q x).1 (fRead q y).1 ((fRead q x).2 ||| (fRead q y).2)

/-- Change the sign of a read operand. -/
def negVal : FVal → FVal
  | .nan s => .nan s
  | .inf s => .inf !s
  | .fin s m ex => .fin (!s) m ex

/-- a − b. -/
def fSub (q : FFmt) (x y : Nat) : Nat × FFlags :=
  fAddVal q (fRead q x).1 (negVal (fRead q y).1) ((fRead q x).2 ||| (fRead q y).2)

/-- a × b. -/
def fMul (q : FFmt) (x y : Nat) : Nat × FFlags :=
  let a := (fRead q x).1
  let b := (fRead q y).1
  let bd := (fRead q x).2 ||| (fRead q y).2
  if isSnan a || isSnan b then fNanResult q true bd
  else
    match a, b with
    | .nan _, _ => fNanResult q false bd
    | _, .nan _ => fNanResult q false bd
    | .inf sa, .inf sb => (fInf q (sa != sb), bd)
    | .inf sa, .fin sb mb _ => if mb = 0 then fInvalid q bd else (fInf q (sa != sb), bd)
    | .fin sa ma _, .inf sb => if ma = 0 then fInvalid q bd else (fInf q (sa != sb), bd)
    | .fin sa ma ea, .fin sb mb eb =>
      withBd bd (fDeliver q (sa != sb) (ma * mb) (ea + eb) false (sa != sb))

/-- The quotient of two positive integers with enough bits for every rounding of the format, and whether a tail is
left: ma × 2^k ÷ mb. -/
def fQuot (q : FFmt) (ma mb : Nat) : Nat × Nat × Bool :=
  let k := q.f + 42 + Nat.log2 mb
  (ma * 2 ^ k / mb, k, decide (ma * 2 ^ k % mb ≠ 0))

/-- a ÷ b. -/
def fDiv (q : FFmt) (x y : Nat) : Nat × FFlags :=
  let a := (fRead q x).1
  let b := (fRead q y).1
  let bd := (fRead q x).2 ||| (fRead q y).2
  if isSnan a || isSnan b then fNanResult q true bd
  else
    match a, b with
    | .nan _, _ => fNanResult q false bd
    | _, .nan _ => fNanResult q false bd
    | .inf _, .inf _ => fInvalid q bd
    | .inf sa, .fin sb _ _ => (fInf q (sa != sb), bd)
    | .fin sa _ _, .inf sb => (fZero q (sa != sb), bd)
    | .fin sa ma ea, .fin sb mb eb =>
      if mb = 0 then
        if ma = 0 then fInvalid q bd else (fInf q (sa != sb), fDZ ||| bd)
      else if ma = 0 then (fZero q (sa != sb), bd)
      else
        let r := fQuot q ma mb
        withBd bd (fRound q (sa != sb) r.1 (ea - eb - r.2.1) r.2.2)

/-- The integer square root, found bit by bit from bit `n − 1` downward. -/
def isqrtFrom (x : Nat) : Nat → Nat → Nat
  | 0, r => r
  | n + 1, r => if (r + 2 ^ n) * (r + 2 ^ n) ≤ x then isqrtFrom x n (r + 2 ^ n) else isqrtFrom x n r

/-- The integer square root. -/
def isqrt (x : Nat) : Nat := isqrtFrom x (Nat.log2 x / 2 + 1) 0

/-- √a; the root of +0, −0 and +∞ is the operand (R128). (DESIGN CHOICE, log 116) -/
def fSqrt (q : FFmt) (x : Nat) : Nat × FFlags :=
  let bd := (fRead q x).2
  match (fRead q x).1 with
  | .nan s => fNanResult q s bd
  | .inf s => if s then fInvalid q bd else (fInf q false, bd)
  | .fin s m ex =>
    if m = 0 then (fZero q s, bd)
    else if s then fInvalid q bd
    else
      let k0 := 2 * (q.f + 42)
      let k := if (ex - k0) % 2 = 0 then k0 else k0 + 1
      let r := isqrt (m * 2 ^ k)
      withBd bd (fRound q false r ((ex - k) / 2) (decide (r * r ≠ m * 2 ^ k)))

/-- a × b + d, rounded once (R128, R130). -/
def fFma (q : FFmt) (x y z : Nat) : Nat × FFlags :=
  let a := (fRead q x).1
  let b := (fRead q y).1
  let d := (fRead q z).1
  let bd := (fRead q x).2 ||| (fRead q y).2 ||| (fRead q z).2
  let sig := isSnan a || isSnan b || isSnan d
  let zeroInf := match a, b with
    | .inf _, .fin _ m _ => decide (m = 0)
    | .fin _ m _, .inf _ => decide (m = 0)
    | _, _ => false
  if sig || zeroInf then fInvalid q bd
  else if isNan a || isNan b || isNan d then fNanResult q false bd
  else
    match a, b, d with
    | .fin sa ma ea, .fin sb mb eb, .fin sd md ed =>
      withBd bd (fSumFin q (sa != sb) (ma * mb) (ea + eb) sd md ed)
    | .fin _ _ _, .fin _ _ _, _ => fAddVal q (.fin false 0 0) d bd
    | .inf sa, .inf sb, _ => fAddVal q (.inf (sa != sb)) d bd
    | .inf sa, .fin sb _ _, _ => fAddVal q (.inf (sa != sb)) d bd
    | .fin sa _ _, .inf sb, _ => fAddVal q (.inf (sa != sb)) d bd
    | _, _, _ => fNanResult q false bd

/-- The order of two read operands, zeros equal (R220). -/
def fOrder (a b : FVal) : Option Ordering :=
  match a, b with
  | .nan _, _ => none
  | _, .nan _ => none
  | .inf sa, .inf sb => some (if sa = sb then .eq else if sa then .lt else .gt)
  | .inf sa, _ => some (if sa then .lt else .gt)
  | _, .inf sb => some (if sb then .gt else .lt)
  | .fin sa ma ea, .fin sb mb eb =>
    let k := min ea eb
    some (compare (fInt sa ma ea k) (fInt sb mb eb k))

/-- The sign of a read operand that is not a NaN. -/
def fSign : FVal → Bool
  | .nan _ => false
  | .inf s => s
  | .fin s _ _ => s

/-- The encoding of a read operand that is not a NaN: the operand's own bits, or a zero of its sign when it was
flushed. -/
def fAsRead (q : FFmt) (x : Nat) : Nat := if (fRead q x).2 = fBD then fZero q (fSign (fRead q x).1) else x

/-- FMIN (`wantMin`) or FMAX, with −0 below +0; a NaN operand gives the canonical NaN, and NV when signaling
(R219). -/
def fMinMax (q : FFmt) (wantMin : Bool) (x y : Nat) : Nat × FFlags :=
  let a := (fRead q x).1
  let b := (fRead q y).1
  let bd := (fRead q x).2 ||| (fRead q y).2
  if isNan a || isNan b then fNanResult q (isSnan a || isSnan b) bd
  else
    let aLow := match fOrder a b with
      | some .lt => true
      | some .eq => fSign a
      | _ => false
    (if aLow = wantMin then fAsRead q x else fAsRead q y, bd)

/-- Round a finite value to an integer multiple of 2^−k under a mode: the signed integer, and whether bits were
lost. -/
def fToFixed (rm draw : Nat) (s : Bool) (m : Nat) (ex : Int) (k : Nat) : Int × Bool :=
  let r := roundTo rm draw s m ex false (-(k : Int))
  (if s then -(r.1 : Int) else (r.1 : Int), r.2)

/-- A conversion to an integer or fixed-point range, R144: the integer delivered and the flags. -/
def fToRange (rm draw : Nat) (v : FVal) (k : Nat) (lo hi : Int) : Int × FFlags :=
  match v with
  | .nan _ => (0, fNV)
  | .inf s => (if s then lo else hi, fNV)
  | .fin s m ex =>
    let r := fToFixed rm draw s m ex k
    if r.1 > hi then (hi, fNV)
    else if r.1 < lo then (lo, fNV)
    else (r.1, if r.2 then fNX else 0)

/-- A conversion between floating formats: the source operand is read under the destination's SUBN (R133, R144). -/
def fConvert (src dst : FFmt) (x : Nat) : Nat × FFlags :=
  let r := fRead { src with flush := dst.flush } x
  match r.1 with
  | .nan s => fNanResult dst s r.2
  | .inf s => (fInf dst s, r.2)
  | .fin s m ex => withBd r.2 (fDeliver dst s m ex false s)

/-- A conversion of an integer × 2^−k to a floating format; an integer zero gives +0. -/
def fFromInt (dst : FFmt) (v : Int) (k : Nat) : Nat × FFlags :=
  fDeliver dst (decide (v < 0)) v.natAbs (-(k : Int)) false false

/-- The controller's formats under FPCTL (R135, R219): RM in bits 2 to 0, SUBN in bit 3. -/
def fmtOf (e f bias : Nat) (fpctl : BitVec 10) : FFmt :=
  { e := e, f := f, bias := bias, flush := bit fpctl 3, rm := fld fpctl 0 3, draw := 0 }

/-- binary32 under FPCTL. -/
def fmtS (fpctl : BitVec 10) : FFmt := fmtOf 8 23 127 fpctl

/-- binary16 under FPCTL. -/
def fmtH (fpctl : BitVec 10) : FFmt := fmtOf 5 10 15 fpctl

/-- bfloat16 under FPCTL. -/
def fmtBF (fpctl : BitVec 10) : FFmt := fmtOf 8 7 127 fpctl

/-- OR flags into FPCTL bits 9 to 4 (FPCTL card). -/
def orFlags (fpctl : BitVec 10) (fl : FFlags) : BitVec 10 := fpctl ||| (fl.setWidth 10 <<< 4)

end Sys2Proof.Machine
end

