-- ==== Sys2Proof/Machine/Operands.lean ====
section
/-! DEFINITION. Every operand form of the controller: the addressing byte, DMEM accesses of each size with the alias
windows, immediates, and vector operands (R177 to R179, R204, R215, R226 to R230). -/

namespace Sys2Proof.Machine

/-- The addressing modes of R179. -/
inductive AMode where
  | stack
  | reg (n : Fin 8)
  | disp (n : Fin 8) (d : Half)
  | postInc (n : Fin 8)
  | preDec (n : Fin 8)
  deriving DecidableEq, Repr

/-- Decode the AM byte, with the displacement that follows it in mode [An + d] (R204): UNDEF FIELD for MODE 5 to 7,
bits [7:6] not 0, REG not 0 under [S], or −[An] in a vector instruction (R205). -/
def decodeAm (am : Byte) (d : Half) (vector : Bool) : Except TrapInfo AMode :=
  let reg : Fin 8 := ⟨fld am 0 3, by unfold fld; exact (am.extractLsb' 0 3).isLt⟩
  if fld am 6 2 ≠ 0 then .error (undef 3)
  else
    match fld am 3 3 with
    | 0 => if reg = 0 then .ok .stack else .error (undef 3)
    | 1 => .ok (.reg reg)
    | 2 => .ok (.disp reg d)
    | 3 => .ok (.postInc reg)
    | 4 => if vector then .error (undef 3) else .ok (.preDec reg)
    | _ => .error (undef 3)

/-- The bytes of an instruction with an AM operand: the opcode bytes, the AM byte, and d16 in mode [An + d]. -/
def amLen (opBytes : Nat) (am : Byte) : Nat := opBytes + amBytes am

/-- How many data cells an addressing mode pops. -/
def amPops : AMode → Nat
  | .stack => 1
  | _ => 0

/-- The address of a mode; `xs` are the popped cells, top first, and `size` the access size (R179). -/
def amAddr (t : Ctl) (m : AMode) (size : Nat) (xs : List Word) : Word :=
  match m with
  | .stack => xs.headD 0
  | .reg n => t.a[n]
  | .disp n d => t.a[n] + d.signExtend 32
  | .postInc n => t.a[n]
  | .preDec n => t.a[n] - BitVec.ofNat 32 size

/-- The update of An that a completed access makes (R179). -/
def amUpdate (t : Ctl) (m : AMode) (size : Nat) : Ctl :=
  match m with
  | .postInc n => { t with a := t.a.set n (t.a[n] + BitVec.ofNat 32 size) }
  | .preDec n => { t with a := t.a.set n (t.a[n] - BitVec.ofNat 32 size) }
  | _ => t

/-- Where a scalar DMEM access lands (R177, R178). -/
inductive Place where
  | plain (a : Nat)
  | setWin (a : Nat)
  | clrWin (a : Nat)
  deriving DecidableEq, Repr

/-- Check a scalar access of `size` bytes: ALIGN, then DACCESS RANGE or ALIAS (R178). -/
def place (addr : Word) (size : Nat) : Except TrapInfo Place :=
  let a := addr.toNat
  if a % size ≠ 0 then .error { vec := 2, cause := 1, addr := addr }
  else if a + size ≤ dmemSize then .ok (.plain a)
  else if a ≥ 3 * dmemSize then .error { vec := 7, cause := 1, addr := addr }
  else if size ≠ 4 then .error { vec := 7, cause := 2, addr := addr }
  else if a < 2 * dmemSize then .ok (.setWin (a - dmemSize))
  else .ok (.clrWin (a - 2 * dmemSize))

/-- The DMEM address of a place. -/
def placeAddr : Place → Nat
  | .plain a => a
  | .setWin a => a
  | .clrWin a => a

/-- Extend a loaded byte or half-word to a word (R215). -/
def extend (x : Nat) (size : Nat) (signed : Bool) : Word :=
  if size = 1 then (if signed then (BitVec.ofNat 8 x).signExtend 32 else BitVec.ofNat 32 x)
  else if size = 2 then (if signed then (BitVec.ofNat 16 x).signExtend 32 else BitVec.ofNat 32 x)
  else BitVec.ofNat 32 x

/-- Load from a checked place; a window load returns the DMEM word unchanged (R177). -/
def loadPlace (ch : Chan) (p : Place) (size : Nat) (signed : Bool) : Except TrapInfo (Word × Chan) :=
  match dmemRead ch (placeAddr p) with
  | .error e => .error e
  | .ok (w, ch) =>
    .ok (extend ((w.toNat / 2 ^ (8 * (placeAddr p % 4))) % 2 ^ (8 * size)) size signed, ch)

/-- Insert the low `size` bytes of a value into a word at a byte offset. -/
def mergeBytes (w x : Word) (off size : Nat) : Word :=
  let mask : Word := BitVec.ofNat 32 ((2 ^ (8 * size) - 1) * 2 ^ (8 * off))
  (w &&& ~~~mask) ||| ((x <<< (8 * off)) &&& mask)

/-- Store to a checked place: a plain word store replaces the word; a byte or half-word store and a window operation
are read-modify-writes, which an uncorrectable word refuses (R177, R235, R241). -/
def storePlace (ch : Chan) (p : Place) (size : Nat) (x : Word) : Except TrapInfo Chan :=
  match p with
  | .plain a =>
    if size = 4 then .ok (dmemWrite ch a x)
    else
      match dmemRead ch a with
      | .error e => .error e
      | .ok (w, ch) => .ok (dmemWrite ch a (mergeBytes w x (a % 4) size))
  | .setWin a =>
    match dmemRead ch a with
    | .error e => .error e
    | .ok (w, ch) => .ok (dmemWrite ch a (w ||| x))
  | .clrWin a =>
    match dmemRead ch a with
    | .error e => .error e
    | .ok (w, ch) => .ok (dmemWrite ch a (w &&& ~~~x))

/-- A scalar load (R215): the address is formed, checked and read, An updated, and the value pushed. -/
def loadOp (size : Nat) (signed : Bool) (am : Byte) (d : Half) (ch : Chan) : Except TrapInfo Chan :=
  match decodeAm am d false with
  | .error e => .error e
  | .ok m =>
    stackOp (amPops m) (fun xs ch =>
      let addr := amAddr ch.ctl m size xs
      match place addr size with
      | .error e => .error e
      | .ok p =>
        match loadPlace ch p size signed with
        | .error e => .error e
        | .ok (v, ch) => .ok ([v], { ch with ctl := amUpdate ch.ctl m size })) ch

/-- A scalar store (R215): ( x [addr] -- ). -/
def storeOp (size : Nat) (am : Byte) (d : Half) (ch : Chan) : Except TrapInfo Chan :=
  match decodeAm am d false with
  | .error e => .error e
  | .ok m =>
    stackOp (amPops m + 1) (fun xs ch =>
      let addr := amAddr ch.ctl m size xs
      match place addr size with
      | .error e => .error e
      | .ok p =>
        match storePlace ch p size (xs.getD (amPops m) 0) with
        | .error e => .error e
        | .ok ch => .ok ([], { ch with ctl := amUpdate ch.ctl m size })) ch

/-! ### Vector operands -/

/-- A vector stack entry. -/
abbrev VecVal := Vector Word 256

/-- An entry whose elements 0 to VL − 1 are computed and whose others are 0 (R188). -/
def vecOf (vl : Nat) (f : Nat → Word) : VecVal := Vector.ofFn fun i : Fin 256 => if i.val < vl then f i.val else 0

/-- An element of an entry; 0 outside it. -/
def vecAt (v : VecVal) (i : Nat) : Word := v.toList.getD i 0

/-- Pop `k` vector entries, top first, or STACK VUNF (R188). -/
def popVec (ch : Chan) (k : Nat) : Except TrapInfo (List VecVal × Chan) :=
  if ch.ctl.vs.length < k then .error { vec := 4, cause := 7, addr := 0 }
  else .ok (ch.ctl.vs.take k, { ch with ctl := { ch.ctl with vs := ch.ctl.vs.drop k } })

/-- Push entries, the last of the list on top, or STACK VOVF (R188). -/
def pushVec (ch : Chan) (vs : List VecVal) : Except TrapInfo Chan :=
  if ch.ctl.vs.length + vs.length > 8 then .error { vec := 4, cause := 6, addr := 0 }
  else .ok { ch with ctl := { ch.ctl with vs := vs.reverse ++ ch.ctl.vs } }

/-- A vector instruction: pop entries, compute, push entries; inputs are checked before outputs (R192). -/
def vecOp (k : Nat) (f : List VecVal → Chan → Except TrapInfo (List VecVal × Chan)) (ch : Chan) :
    Except TrapInfo Chan :=
  match popVec ch k with
  | .error e => .error e
  | .ok (vs, ch) =>
    match f vs ch with
    | .error e => .error e
    | .ok (rs, ch) => pushVec ch rs

/-- Element-wise work on the top two entries, `a` below `b` (R227). -/
def vecBin (g : Word → Word → Word) (ch : Chan) : Except TrapInfo Chan :=
  vecOp 2 (fun vs ch =>
    let b := vs.getD 0 (Vector.replicate 256 0)
    let a := vs.getD 1 (Vector.replicate 256 0)
    .ok ([vecOf ch.ctl.vl fun i => g (vecAt a i) (vecAt b i)], ch)) ch

/-- OR flags into FPCTL. -/
def setFp (ch : Chan) (fl : FFlags) : Chan := { ch with ctl := { ch.ctl with fpctl := orFlags ch.ctl.fpctl fl } }

/-- The flags of an element-wise computation, ORed over elements 0 to VL − 1 (R227). -/
def orElems (vl : Nat) (f : Nat → FFlags) : FFlags := (List.range vl).foldl (fun acc i => acc ||| f i) 0

/-- Element-wise floating work; the flags are ORed into FPCTL (R227). -/
def vecFp (k : Nat) (g : List Word → Nat × FFlags) (ch : Chan) : Except TrapInfo Chan :=
  vecOp k (fun vs ch =>
    let args := fun i => vs.reverse.map fun v => vecAt v i
    .ok ([vecOf ch.ctl.vl fun i => BitVec.ofNat 32 (g (args i)).1],
      setFp ch (orElems ch.ctl.vl fun i => (g (args i)).2))) ch

/-- The DMEM words that the element at a byte address touches. -/
def elemWords (a : Nat) : List Nat := if a % 4 = 0 then [a / 4] else [a / 4, a / 4 + 1]

/-- Why an element access at a 32-bit address faults: ALIAS when its first byte outside plain DMEM lies in a window,
RANGE when that byte lies outside both windows, ECC for an uncorrectable read (R229). -/
def elemFault (ch : Chan) (addr : Nat) (load : Bool) : Option Nat :=
  let a := addr % 2 ^ 32
  if a + 4 > dmemSize then
    let first := if a < dmemSize then dmemSize else a
    some (if first < 3 * dmemSize then 2 else 1)
  else if load && (elemWords a).any (markUe ch.mem.dmarks) then some 4
  else none

/-- The lowest faulting element of 0 to VL − 1. -/
def firstFault (ch : Chan) (addr vl : Nat) (load : Bool) : Option (Nat × Nat) :=
  (List.range vl).findSome? fun k => (elemFault ch (addr + 4 * k) load).map fun c => (k, c)

/-- Read element `k`: its four bytes, little-endian, at any byte address. -/
def elemRead (ch : Chan) (addr k : Nat) : Word := memWord ch.mem.dmem ((addr + 4 * k) % 2 ^ 32)

/-- The reads of elements 0 to `n` − 1 correct single-bit errors (R240). -/
def elemChecks (ch : Chan) (addr n : Nat) : Chan :=
  (List.range n).foldl (fun ch k => (elemWords ((addr + 4 * k) % 2 ^ 32)).foldl dmemCheck ch) ch

/-- Write part of a word, a read-modify-write: an uncorrectable word takes nothing, and is reported (R240, R241). -/
def partWrite (ch : Chan) (word : Nat) (x mask : Word) : Chan :=
  if markUe ch.mem.dmarks word then reportDmemUe ch (4 * word)
  else
    let ch := dmemCheck ch word
    dmemWrite ch (4 * word) ((memWord ch.mem.dmem (4 * word) &&& ~~~mask) ||| (x &&& mask))

/-- Write element `k`. An aligned element is a whole-word store; another one writes parts of two words. -/
def elemWrite (ch : Chan) (addr k : Nat) (x : Word) : Chan :=
  let a := (addr + 4 * k) % 2 ^ 32
  if a % 4 = 0 then dmemWrite ch a x
  else
    let n := 8 * (a % 4)
    partWrite (partWrite ch (a / 4) (x <<< n) (BitVec.allOnes 32 <<< n)) (a / 4 + 1) (x >>> (32 - n))
      (BitVec.allOnes 32 >>> (32 - n))

/-- Write elements 0 to `n` − 1. The words that they cover wholly are replaced, so an uncorrectable one is cleared; a part of
an uncorrectable word at either end is not written, and raises nothing (R229, R241). (DEDUCED, log 112) -/
def elemStore (ch : Chan) (addr n : Nat) (x : Nat → Word) : Chan :=
  let ch := { ch with mem := { ch.mem with
    dmarks := ch.mem.dmarks.filter fun m => !decide (addr ≤ 4 * m.word ∧ 4 * m.word + 4 ≤ addr + 4 * n) } }
  (List.range n).foldl (fun ch k => elemWrite ch addr k (x k)) ch

end Sys2Proof.Machine
end

