-- ==== Sys2Proof/Machine/CtlStack.lean ====
section
/-! DEFINITION. The stack, literal and address-register instructions (R210, R216). -/

namespace Sys2Proof.Machine

/-- An instruction of `len` bytes on channel `c` that continues sequentially. -/
def ctl (c : Ch) (len : Nat) (f : Chan → Except TrapInfo Chan) (s : State) : Host.Outcome State Fault Refusal :=
  onChan c (runInstr len (seqBody f)) s

/-- An instruction that only moves or computes data cells: `k` inputs, top first, and its results, last on top. -/
def cells (k : Nat) (f : List Word → List Word) : Chan → Except TrapInfo Chan :=
  stackOp k fun xs ch => .ok (f xs, ch)

/-- NOP (R210). The command carries the primary byte fetched and the byte after it: 0x00 is NOP, and a reserved encoding
raises UNDEF (R205, R209, R225, R226). Bytes that spell another instruction are that instruction's command, and nothing
here. -/
def execNop (c : Ch) (b0 b1 : Byte) (s : State) : Host.Outcome State Fault Refusal :=
  if b0 = 0 then ctl c 1 (fun ch => .ok ch) s
  else if (readInstr c [b0, b1]).isSome then .next s
  else ctl c (reservedLen b0) (fun _ => .error (undef (reservedCause b0))) s

/-- DUP ( a -- a a ). -/
def execDup (c : Ch) (s : State) : Host.Outcome State Fault Refusal :=
  ctl c 1 (cells 1 fun xs => [xs.getD 0 0, xs.getD 0 0]) s

/-- DROP ( a -- ). -/
def execDrop (c : Ch) (s : State) : Host.Outcome State Fault Refusal := ctl c 1 (cells 1 fun _ => []) s

/-- SWAP ( a b -- b a ). -/
def execSwap (c : Ch) (s : State) : Host.Outcome State Fault Refusal :=
  ctl c 1 (cells 2 fun xs => [xs.getD 0 0, xs.getD 1 0]) s

/-- OVER ( a b -- a b a ). -/
def execOver (c : Ch) (s : State) : Host.Outcome State Fault Refusal :=
  ctl c 1 (cells 2 fun xs => [xs.getD 1 0, xs.getD 0 0, xs.getD 1 0]) s

/-- ROT ( a b c -- b c a ). -/
def execRot (c : Ch) (s : State) : Host.Outcome State Fault Refusal :=
  ctl c 1 (cells 3 fun xs => [xs.getD 1 0, xs.getD 0 0, xs.getD 2 0]) s

/-- NIP ( a b -- b ). -/
def execNip (c : Ch) (s : State) : Host.Outcome State Fault Refusal := ctl c 1 (cells 2 fun xs => [xs.getD 0 0]) s

/-- TUCK ( a b -- b a b ). -/
def execTuck (c : Ch) (s : State) : Host.Outcome State Fault Refusal :=
  ctl c 1 (cells 2 fun xs => [xs.getD 0 0, xs.getD 1 0, xs.getD 0 0]) s

/-- 2DUP ( a b -- a b a b ). -/
def execTwoDup (c : Ch) (s : State) : Host.Outcome State Fault Refusal :=
  ctl c 1 (cells 2 fun xs => [xs.getD 1 0, xs.getD 0 0, xs.getD 1 0, xs.getD 0 0]) s

/-- 2DROP ( a b -- ). -/
def execTwoDrop (c : Ch) (s : State) : Host.Outcome State Fault Refusal := ctl c 1 (cells 2 fun _ => []) s

/-- PICK k: pushes a copy of x`k`; k above 6 raises UNDEF FIELD (R205). -/
def execPick (c : Ch) (k : Byte) (s : State) : Host.Outcome State Fault Refusal :=
  ctl c 2 (fun ch =>
    if k.toNat > 6 then .error (undef 3)
    else cells (k.toNat + 1) (fun xs => xs.reverse ++ [xs.getD k.toNat 0]) ch) s

/-- >R ( x -- ) R( -- x ). -/
def execToR (c : Ch) (s : State) : Host.Outcome State Fault Refusal :=
  ctl c 1 (stackOp 1 fun xs ch =>
    match pushReturn ch [xs.getD 0 0] with
    | .error e => .error e
    | .ok ch => .ok ([], ch)) s

/-- Pop one return cell and push `f` of it on the data stack; the return stack keeps `g` of it. -/
def fromReturn (f : Word → List Word) (keep : Bool) (ch : Chan) : Except TrapInfo Chan :=
  match popReturn ch 1 with
  | .error e => .error e
  | .ok (xs, ch1) =>
    let ch := if keep then { ch1 with ctl := { ch1.ctl with rs := xs ++ ch1.ctl.rs } } else ch1
    trapIn ch1 (pushData ch (f (xs.getD 0 0)))

/-- R> ( -- x ) R( x -- ). -/
def execRFrom (c : Ch) (s : State) : Host.Outcome State Fault Refusal := ctl c 1 (fromReturn (fun x => [x]) false) s

/-- R@ ( -- x ) R( x -- x ). -/
def execRFetch (c : Ch) (s : State) : Host.Outcome State Fault Refusal := ctl c 1 (fromReturn (fun x => [x]) true) s

/-- RDROP R( x -- ). -/
def execRdrop (c : Ch) (s : State) : Host.Outcome State Fault Refusal := ctl c 1 (fromReturn (fun _ => []) false) s

/-- Push one literal. -/
def lit (v : Word) (ch : Chan) : Except TrapInfo Chan := pushData ch [v]

/-- LIT8: a sign-extended 8-bit immediate. -/
def execLit8 (c : Ch) (i : Byte) (s : State) : Host.Outcome State Fault Refusal := ctl c 2 (lit (i.signExtend 32)) s

/-- LIT16: a sign-extended 16-bit immediate. -/
def execLit16 (c : Ch) (i : Half) (s : State) : Host.Outcome State Fault Refusal := ctl c 3 (lit (i.signExtend 32)) s

/-- LIT24: a sign-extended 24-bit immediate. -/
def execLit24 (c : Ch) (i : BitVec 24) (s : State) : Host.Outcome State Fault Refusal :=
  ctl c 4 (lit (i.signExtend 32)) s

/-- LITU16: a zero-extended 16-bit immediate. -/
def execLitu16 (c : Ch) (i : Half) (s : State) : Host.Outcome State Fault Refusal := ctl c 3 (lit (i.setWidth 32)) s

/-- LITH ( x -- (x AND 0xFFFF) OR (i16 << 16) ). -/
def execLith (c : Ch) (i : Half) (s : State) : Host.Outcome State Fault Refusal :=
  ctl c 3 (cells 1 fun xs => [(xs.getD 0 0 &&& 0xFFFF#32) ||| (i.setWidth 32 <<< 16)]) s

/-- >An ( x -- ): An := x (R216). -/
def execToA (c : Ch) (n : Fin 8) (s : State) : Host.Outcome State Fault Refusal :=
  ctl c 1 (stackOp 1 fun xs ch => .ok ([], { ch with ctl := { ch.ctl with a := ch.ctl.a.set n (xs.getD 0 0) } })) s

/-- An> ( -- An ) (R216). -/
def execAFrom (c : Ch) (n : Fin 8) (s : State) : Host.Outcome State Fault Refusal :=
  ctl c 1 (fun ch => pushData ch [ch.ctl.a[n]]) s

/-- ADDAn: An := An + i16, signed (R216). -/
def execAdda (c : Ch) (n : Fin 8) (i : Half) (s : State) : Host.Outcome State Fault Refusal :=
  ctl c 3 (fun ch =>
    .ok { ch with ctl := { ch.ctl with a := ch.ctl.a.set n (ch.ctl.a[n] + i.signExtend 32) } }) s

end Sys2Proof.Machine
end

