-- ==== Sys2Proof/Machine/CtlArith.lean ====
section
/-! DEFINITION. The integer instructions (R211 to R214). -/

namespace Sys2Proof.Machine

/-- An integer instruction: `k` inputs (top first), its results (last on top) and its flags. -/
def alu (k : Nat) (f : Ctl → List Word → List Word × Ctl) : Chan → Except TrapInfo Chan :=
  stackOp k fun xs ch =>
    let r := f ch.ctl xs
    .ok (r.1, { ch with ctl := r.2 })

/-- A one-result instruction that sets N and Z (R180). -/
def aluNZ (k : Nat) (f : List Word → Word) : Chan → Except TrapInfo Chan :=
  alu k fun t xs => ([f xs], flagsNZ t (f xs))

/-- A sum with NZCV (R211). -/
def aluAdd (k : Nat) (a b : List Word → Word) (cin : Ctl → Bool) : Chan → Except TrapInfo Chan :=
  alu k fun t xs =>
    let r := addFlags t (a xs) (b xs) (cin t)
    ([r.1], r.2)

/-- A difference with NZCV (R211). -/
def aluSub (k : Nat) (a b : List Word → Word) (cin : Ctl → Bool) : Chan → Except TrapInfo Chan :=
  alu k fun t xs =>
    let r := subFlags t (a xs) (b xs) (cin t)
    ([r.1], r.2)

/-- The flags of a difference, with no result (R211). -/
def aluCmp (k : Nat) (a b : List Word → Word) : Chan → Except TrapInfo Chan :=
  alu k fun t xs => ([], (subFlags t (a xs) (b xs) true).2)

/-- A shift or rotate by a stack count with NZC (R212). -/
def aluShift (f : Word → Nat → Word × Option Bool) : Chan → Except TrapInfo Chan :=
  alu 2 fun t xs =>
    let r := f (xs.getD 1 0) (xs.getD 0 0).toNat
    ([r.1], flagsNZC t r.1 r.2)

/-- A shift or rotate by an immediate; a count above 31 raises UNDEF FIELD (R205, R212). -/
def aluShiftI (i : Byte) (f : Word → Nat → Word × Option Bool) (ch : Chan) : Except TrapInfo Chan :=
  if i.toNat > 31 then .error (undef 3)
  else alu 1 (fun t xs =>
    let r := f (xs.getD 0 0) i.toNat
    ([r.1], flagsNZC t r.1 r.2)) ch

/-- The top cell. -/
def top (xs : List Word) : Word := xs.getD 0 0

/-- The second cell. -/
def second (xs : List Word) : Word := xs.getD 1 0

/-- The signed 64-bit product. -/
def mulS (a b : Word) : BitVec 64 := a.signExtend 64 * b.signExtend 64

/-- The unsigned 64-bit product. -/
def mulU (a b : Word) : BitVec 64 := a.setWidth 64 * b.setWidth 64

/-- The high half of a 64-bit value. -/
def hi64 (p : BitVec 64) : Word := p.extractLsb' 32 32

/-- The low half of a 64-bit value. -/
def lo64 (p : BitVec 64) : Word := p.extractLsb' 0 32

/-- Leading zeros, 0 to 32. -/
def clz (x : Word) : Nat := if x = 0 then 32 else 31 - Nat.log2 x.toNat

/-- Trailing zeros, 0 to 32. -/
def ctz (x : Word) : Nat := ((List.range 32).find? fun k => bit x k).getD 32

/-- How many bits are 1. -/
def popc (x : Word) : Nat := ((List.range 32).filter fun k => bit x k).length

/-- DIVS and DIVU push the remainder and the quotient; a zero divisor and the one overflow have the results of R213. -/
def divide (signed : Bool) : Chan → Except TrapInfo Chan :=
  stackOp 2 fun xs ch =>
    let a := second xs
    let b := top xs
    if b = 0 then
      .ok ([a, 0xFFFFFFFF#32], setFp { ch with ctl := flagsDiv ch.ctl 0xFFFFFFFF#32 false } fDZ)
    else if signed && decide (a = 0x80000000#32 ∧ b = 0xFFFFFFFF#32) then
      .ok ([0, 0x80000000#32], setFp { ch with ctl := flagsDiv ch.ctl 0x80000000#32 true } fOF)
    else
      let q := if signed then BitVec.ofInt 32 (a.toInt.tdiv b.toInt) else BitVec.ofNat 32 (a.toNat / b.toNat)
      let r := if signed then BitVec.ofInt 32 (a.toInt.tmod b.toInt) else BitVec.ofNat 32 (a.toNat % b.toNat)
      .ok ([r, q], { ch with ctl := flagsDiv ch.ctl q false })

/-- ADD ( a b -- a + b ). -/
def execAdd (c : Ch) (s : State) : Host.Outcome State Fault Refusal :=
  ctl c 1 (aluAdd 2 second top fun _ => false) s

/-- ADC ( a b -- a + b + C ). -/
def execAdc (c : Ch) (s : State) : Host.Outcome State Fault Refusal :=
  ctl c 1 (aluAdd 2 second top fun t => t.c) s

/-- SUB ( a b -- a − b ). -/
def execSub (c : Ch) (s : State) : Host.Outcome State Fault Refusal :=
  ctl c 1 (aluSub 2 second top fun _ => true) s

/-- SBC ( a b -- a − b − (1 − C) ). -/
def execSbc (c : Ch) (s : State) : Host.Outcome State Fault Refusal :=
  ctl c 1 (aluSub 2 second top fun t => t.c) s

/-- NEG ( a -- 0 − a ). -/
def execNeg (c : Ch) (s : State) : Host.Outcome State Fault Refusal :=
  ctl c 1 (aluSub 1 (fun _ => 0) top fun _ => true) s

/-- CMP ( a b -- ); flags of a − b. -/
def execCmp (c : Ch) (s : State) : Host.Outcome State Fault Refusal :=
  ctl c 1 (aluCmp 2 second top) s

/-- AND ( a b -- a AND b ). -/
def execAnd (c : Ch) (s : State) : Host.Outcome State Fault Refusal :=
  ctl c 1 (aluNZ 2 fun xs => second xs &&& top xs) s

/-- OR ( a b -- a OR b ). -/
def execOr (c : Ch) (s : State) : Host.Outcome State Fault Refusal :=
  ctl c 1 (aluNZ 2 fun xs => second xs ||| top xs) s

/-- XOR ( a b -- a XOR b ). -/
def execXor (c : Ch) (s : State) : Host.Outcome State Fault Refusal :=
  ctl c 1 (aluNZ 2 fun xs => second xs ^^^ top xs) s

/-- NOT ( a -- NOT a ). -/
def execNot (c : Ch) (s : State) : Host.Outcome State Fault Refusal :=
  ctl c 1 (aluNZ 1 fun xs => ~~~top xs) s

/-- SHL ( x n -- x' ) (R212). -/
def execShl (c : Ch) (s : State) : Host.Outcome State Fault Refusal :=
  ctl c 1 (aluShift shlBy) s

/-- SHR ( x n -- x' ) (R212). -/
def execShr (c : Ch) (s : State) : Host.Outcome State Fault Refusal :=
  ctl c 1 (aluShift shrBy) s

/-- SAR ( x n -- x' ) (R212). -/
def execSar (c : Ch) (s : State) : Host.Outcome State Fault Refusal :=
  ctl c 1 (aluShift sarBy) s

/-- ROL ( x n -- x' ) (R212). -/
def execRol (c : Ch) (s : State) : Host.Outcome State Fault Refusal :=
  ctl c 1 (aluShift rolBy) s

/-- ROR ( x n -- x' ) (R212). -/
def execRor (c : Ch) (s : State) : Host.Outcome State Fault Refusal :=
  ctl c 1 (aluShift rorBy) s

/-- TST ( x -- x ), flags NZ. -/
def execTst (c : Ch) (s : State) : Host.Outcome State Fault Refusal :=
  ctl c 1 (aluNZ 1 top) s

/-- MUL: the low 32 bits of a × b. -/
def execMul (c : Ch) (s : State) : Host.Outcome State Fault Refusal :=
  ctl c 1 (aluNZ 2 fun xs => second xs * top xs) s

/-- MULH: the high 32 bits of the signed product. -/
def execMulh (c : Ch) (s : State) : Host.Outcome State Fault Refusal :=
  ctl c 1 (aluNZ 2 fun xs => hi64 (mulS (second xs) (top xs))) s

/-- MULHU: the high 32 bits of the unsigned product. -/
def execMulhu (c : Ch) (s : State) : Host.Outcome State Fault Refusal :=
  ctl c 1 (aluNZ 2 fun xs => hi64 (mulU (second xs) (top xs))) s

/-- MULW ( a b -- lo hi ); flags of the 64-bit product (R213). -/
def execMulw (c : Ch) (s : State) : Host.Outcome State Fault Refusal :=
  ctl c 1 (alu 2 fun t xs =>
    let p := mulS (second xs) (top xs)
    ([lo64 p, hi64 p], flagsNZ64 t p)) s

/-- MULWU ( a b -- lo hi ); flags of the 64-bit product (R213). -/
def execMulwu (c : Ch) (s : State) : Host.Outcome State Fault Refusal :=
  ctl c 1 (alu 2 fun t xs =>
    let p := mulU (second xs) (top xs)
    ([lo64 p, hi64 p], flagsNZ64 t p)) s

/-- DIVS ( a b -- r q ), signed (R213). -/
def execDivs (c : Ch) (s : State) : Host.Outcome State Fault Refusal :=
  ctl c 1 (divide true) s

/-- DIVU ( a b -- r q ), unsigned (R213). -/
def execDivu (c : Ch) (s : State) : Host.Outcome State Fault Refusal :=
  ctl c 1 (divide false) s

/-- MIN: the signed minimum. -/
def execMin (c : Ch) (s : State) : Host.Outcome State Fault Refusal :=
  ctl c 1 (aluNZ 2 fun xs => if (second xs).slt (top xs) then second xs else top xs) s

/-- MAX: the signed maximum. -/
def execMax (c : Ch) (s : State) : Host.Outcome State Fault Refusal :=
  ctl c 1 (aluNZ 2 fun xs => if (second xs).slt (top xs) then top xs else second xs) s

/-- MINU: the unsigned minimum. -/
def execMinu (c : Ch) (s : State) : Host.Outcome State Fault Refusal :=
  ctl c 1 (aluNZ 2 fun xs => if (second xs).ult (top xs) then second xs else top xs) s

/-- MAXU: the unsigned maximum. -/
def execMaxu (c : Ch) (s : State) : Host.Outcome State Fault Refusal :=
  ctl c 1 (aluNZ 2 fun xs => if (second xs).ult (top xs) then top xs else second xs) s

/-- ABS: sets V only for 0x8000_0000, which it returns unchanged (R211). -/
def execAbs (c : Ch) (s : State) : Host.Outcome State Fault Refusal :=
  ctl c 1 (alu 1 fun t xs =>
    let r := if bit (top xs) 31 then 0 - top xs else top xs
    ([r], { flagsNZ t r with v := decide (top xs = 0x80000000#32) })) s

/-- CLZ: leading zeros, 0 to 32. -/
def execClz (c : Ch) (s : State) : Host.Outcome State Fault Refusal :=
  ctl c 1 (aluNZ 1 fun xs => BitVec.ofNat 32 (clz (top xs))) s

/-- CTZ: trailing zeros, 0 to 32. -/
def execCtz (c : Ch) (s : State) : Host.Outcome State Fault Refusal :=
  ctl c 1 (aluNZ 1 fun xs => BitVec.ofNat 32 (ctz (top xs))) s

/-- POPC: the number of 1 bits. -/
def execPopc (c : Ch) (s : State) : Host.Outcome State Fault Refusal :=
  ctl c 1 (aluNZ 1 fun xs => BitVec.ofNat 32 (popc (top xs))) s

/-- ADDI ( a -- a + i16 ), i16 signed. -/
def execAddi (c : Ch) (i : Half) (s : State) : Host.Outcome State Fault Refusal :=
  ctl c 3 (aluAdd 1 top (fun _ => i.signExtend 32) fun _ => false) s

/-- ANDI: the immediate is zero-extended. -/
def execAndi (c : Ch) (i : Half) (s : State) : Host.Outcome State Fault Refusal :=
  ctl c 3 (aluNZ 1 fun xs => top xs &&& i.setWidth 32) s

/-- ORI: the immediate is zero-extended. -/
def execOri (c : Ch) (i : Half) (s : State) : Host.Outcome State Fault Refusal :=
  ctl c 3 (aluNZ 1 fun xs => top xs ||| i.setWidth 32) s

/-- XORI: the immediate is zero-extended. -/
def execXori (c : Ch) (i : Half) (s : State) : Host.Outcome State Fault Refusal :=
  ctl c 3 (aluNZ 1 fun xs => top xs ^^^ i.setWidth 32) s

/-- CMPI ( a -- ); flags of a − i16, i16 signed. -/
def execCmpi (c : Ch) (i : Half) (s : State) : Host.Outcome State Fault Refusal :=
  ctl c 3 (aluCmp 1 top fun _ => i.signExtend 32) s

/-- SHLI by an immediate count 0 to 31 (R212). -/
def execShli (c : Ch) (i : Byte) (s : State) : Host.Outcome State Fault Refusal :=
  ctl c 2 (aluShiftI i shlBy) s

/-- SHRI by an immediate count 0 to 31 (R212). -/
def execShri (c : Ch) (i : Byte) (s : State) : Host.Outcome State Fault Refusal :=
  ctl c 2 (aluShiftI i shrBy) s

/-- SARI by an immediate count 0 to 31 (R212). -/
def execSari (c : Ch) (i : Byte) (s : State) : Host.Outcome State Fault Refusal :=
  ctl c 2 (aluShiftI i sarBy) s

/-- RORI by an immediate count 0 to 31 (R212). -/
def execRori (c : Ch) (i : Byte) (s : State) : Host.Outcome State Fault Refusal :=
  ctl c 2 (aluShiftI i rorBy) s

/-- A bounds check keeps its index, or traps BOUNDS with the index in TRAP_ADDR (R214). -/
def bounds (k cause : Nat) (holds : List Word → Bool) : Chan → Except TrapInfo Chan :=
  stackOp k fun xs ch =>
    let i := xs.getD (k - 1) 0
    if holds xs then .ok ([i], ch) else .error { vec := 3, cause := cause, addr := i }

/-- CHKB ( i lo hi -- i ): lo ≤ i ≤ hi, signed (R214). -/
def execChkb (c : Ch) (s : State) : Host.Outcome State Fault Refusal :=
  ctl c 1 (bounds 3 1 fun xs => (xs.getD 1 0).sle (xs.getD 2 0) && (xs.getD 2 0).sle (xs.getD 0 0)) s

/-- CHKBU ( i lim -- i ): i < lim, unsigned (R214). -/
def execChkbu (c : Ch) (s : State) : Host.Outcome State Fault Refusal :=
  ctl c 1 (bounds 2 2 fun xs => (xs.getD 1 0).ult (xs.getD 0 0)) s

end Sys2Proof.Machine
end

