-- ==== Sys2Proof/Machine/CtlFloat.lean ====
section
/-! DEFINITION. The binary32 instructions (R219, R220). -/

namespace Sys2Proof.Machine

/-- A floating-point instruction: `k` inputs, bottom first, one result, sticky flags into FPCTL (R219). -/
def fpu (k : Nat) (f : BitVec 10 → List Nat → Nat × FFlags) : Chan → Except TrapInfo Chan :=
  stackOp k fun xs ch =>
    let r := f ch.ctl.fpctl (xs.reverse.map BitVec.toNat)
    .ok ([BitVec.ofNat 32 r.1], setFp ch r.2)

/-- The first operand. -/
def arg0 (xs : List Nat) : Nat := xs.getD 0 0

/-- The second operand. -/
def arg1 (xs : List Nat) : Nat := xs.getD 1 0

/-- The third operand. -/
def arg2 (xs : List Nat) : Nat := xs.getD 2 0

/-- FNEG and FABS change only the sign bit; a NaN gives the canonical NaN, with NV for a signaling one (R219). -/
def signOp (q : FFmt) (g : Nat → Nat) (x : Nat) : Nat × FFlags :=
  match (fRead q x).1 with
  | .nan sig => fNanResult q sig 0
  | _ => (g x, 0)

/-- The negated binary32 bits. -/
def negBits (x : Nat) : Nat := (x + 2 ^ 31) % 2 ^ 32

/-- The binary32 bits with the sign cleared. -/
def absBits (x : Nat) : Nat := x % 2 ^ 31

/-- binary32 addition. -/
def fpAdd (fp : BitVec 10) (xs : List Nat) : Nat × FFlags := fAdd (fmtS fp) (arg0 xs) (arg1 xs)

/-- binary32 subtraction. -/
def fpSub (fp : BitVec 10) (xs : List Nat) : Nat × FFlags := fSub (fmtS fp) (arg0 xs) (arg1 xs)

/-- binary32 multiplication. -/
def fpMul (fp : BitVec 10) (xs : List Nat) : Nat × FFlags := fMul (fmtS fp) (arg0 xs) (arg1 xs)

/-- binary32 fused multiply-add. -/
def fpMa (fp : BitVec 10) (xs : List Nat) : Nat × FFlags := fFma (fmtS fp) (arg0 xs) (arg1 xs) (arg2 xs)

/-- binary32 minimum. -/
def fpMin (fp : BitVec 10) (xs : List Nat) : Nat × FFlags := fMinMax (fmtS fp) true (arg0 xs) (arg1 xs)

/-- binary32 maximum. -/
def fpMax (fp : BitVec 10) (xs : List Nat) : Nat × FFlags := fMinMax (fmtS fp) false (arg0 xs) (arg1 xs)

/-- binary32 sign change. -/
def fpNeg (fp : BitVec 10) (xs : List Nat) : Nat × FFlags := signOp (fmtS fp) negBits (arg0 xs)

/-- binary32 magnitude. -/
def fpAbs (fp : BitVec 10) (xs : List Nat) : Nat × FFlags := signOp (fmtS fp) absBits (arg0 xs)

/-- int32 to binary32. -/
def fpFromW (fp : BitVec 10) (xs : List Nat) : Nat × FFlags := fFromInt (fmtS fp) (sval 32 (arg0 xs)) 0

/-- binary32 to an integer range under FPCTL.RM (R144, R219). -/
def fpToRange (fp : BitVec 10) (lo hi : Int) (x : Nat) : Nat × FFlags :=
  let v := fRead (fmtS fp) x
  let r := fToRange (fmtS fp).rm 0 v.1 0 lo hi
  (uval 32 r.1, r.2 ||| v.2)

/-- binary32 to int32. -/
def fpToW (fp : BitVec 10) (xs : List Nat) : Nat × FFlags :=
  fpToRange fp (-(2 ^ 31 : Nat)) ((2 ^ 31 : Nat) - 1) (arg0 xs)

/-- FADD ( a b -- r ). -/
def execFadd (c : Ch) (s : State) : Host.Outcome State Fault Refusal :=
  ctl c 1 (fpu 2 fpAdd) s

/-- FSUB ( a b -- r ). -/
def execFsub (c : Ch) (s : State) : Host.Outcome State Fault Refusal :=
  ctl c 1 (fpu 2 fpSub) s

/-- FMUL ( a b -- r ). -/
def execFmul (c : Ch) (s : State) : Host.Outcome State Fault Refusal :=
  ctl c 1 (fpu 2 fpMul) s

/-- FDIV ( a b -- a ÷ b ). -/
def execFdiv (c : Ch) (s : State) : Host.Outcome State Fault Refusal :=
  ctl c 1 (fpu 2 fun fp xs => fDiv (fmtS fp) (arg0 xs) (arg1 xs)) s

/-- FSQRT. -/
def execFsqrt (c : Ch) (s : State) : Host.Outcome State Fault Refusal :=
  ctl c 1 (fpu 1 fun fp xs => fSqrt (fmtS fp) (arg0 xs)) s

/-- FMA ( a b c -- a × b + c ), rounded once. -/
def execFma (c : Ch) (s : State) : Host.Outcome State Fault Refusal :=
  ctl c 1 (fpu 3 fpMa) s

/-- FNEG. -/
def execFneg (c : Ch) (s : State) : Host.Outcome State Fault Refusal :=
  ctl c 1 (fpu 1 fpNeg) s

/-- FABS. -/
def execFabs (c : Ch) (s : State) : Host.Outcome State Fault Refusal :=
  ctl c 1 (fpu 1 fpAbs) s

/-- FMIN. -/
def execFmin (c : Ch) (s : State) : Host.Outcome State Fault Refusal :=
  ctl c 1 (fpu 2 fpMin) s

/-- FMAX. -/
def execFmax (c : Ch) (s : State) : Host.Outcome State Fault Refusal :=
  ctl c 1 (fpu 2 fpMax) s

/-- The relation of two binary32 operands and the flags of their reading (R220). -/
def compareS (fp : BitVec 10) (x y : Nat) : Relation × FFlags :=
  let a := fRead (fmtS fp) x
  let b := fRead (fmtS fp) y
  let fl := a.2 ||| b.2 ||| (if isSnan a.1 || isSnan b.1 then fNV else 0)
  match fOrder a.1 b.1 with
  | none => (.unordered, fl)
  | some .lt => (.lt, fl)
  | some .eq => (.eq, fl)
  | some .gt => (.gt, fl)

/-- FCMP ( a b -- ) sets NZCV by the relation (R220). -/
def execFcmp (c : Ch) (s : State) : Host.Outcome State Fault Refusal :=
  ctl c 1 (stackOp 2 fun xs ch =>
    let r := compareS ch.ctl.fpctl (second xs).toNat (top xs).toNat
    .ok ([], setFp { ch with ctl := flagsRel ch.ctl r.1 } r.2)) s

/-- FCVT.S.W ( int32 -- binary32 ). -/
def execFcvtSW (c : Ch) (s : State) : Host.Outcome State Fault Refusal :=
  ctl c 1 (fpu 1 fpFromW) s

/-- FCVT.S.WU ( uint32 -- binary32 ). -/
def execFcvtSWu (c : Ch) (s : State) : Host.Outcome State Fault Refusal :=
  ctl c 1 (fpu 1 fun fp xs => fFromInt (fmtS fp) (arg0 xs) 0) s

/-- FCVT.W.S ( binary32 -- int32 ). -/
def execFcvtWS (c : Ch) (s : State) : Host.Outcome State Fault Refusal :=
  ctl c 1 (fpu 1 fpToW) s

/-- FCVT.WU.S ( binary32 -- uint32 ). -/
def execFcvtWuS (c : Ch) (s : State) : Host.Outcome State Fault Refusal :=
  ctl c 1 (fpu 1 fun fp xs => fpToRange fp 0 ((2 ^ 32 : Nat) - 1) (arg0 xs)) s

/-- FCVT.S.H ( binary16 -- binary32 ). -/
def execFcvtSH (c : Ch) (s : State) : Host.Outcome State Fault Refusal :=
  ctl c 1 (fpu 1 fun fp xs => fConvert (fmtH fp) (fmtS fp) (arg0 xs % 2 ^ 16)) s

/-- FCVT.H.S ( binary32 -- binary16 ). -/
def execFcvtHS (c : Ch) (s : State) : Host.Outcome State Fault Refusal :=
  ctl c 1 (fpu 1 fun fp xs => fConvert (fmtS fp) (fmtH fp) (arg0 xs)) s

/-- FCVT.S.BF ( bfloat16 -- binary32 ). -/
def execFcvtSBf (c : Ch) (s : State) : Host.Outcome State Fault Refusal :=
  ctl c 1 (fpu 1 fun fp xs => fConvert (fmtBF fp) (fmtS fp) (arg0 xs % 2 ^ 16)) s

/-- FCVT.BF.S ( binary32 -- bfloat16 ). -/
def execFcvtBfS (c : Ch) (s : State) : Host.Outcome State Fault Refusal :=
  ctl c 1 (fpu 1 fun fp xs => fConvert (fmtS fp) (fmtBF fp) (arg0 xs)) s

end Sys2Proof.Machine
end

