-- ==== Sys2Proof/Machine/CtlFlow.lean ====
section
/-! DEFINITION. Jumps, calls, frames, loops, REP and branches (R175, R176, R182 to R187, R195, R217, R218). -/

namespace Sys2Proof.Machine

/-- An instruction that transfers control itself. -/
def ctlJump (c : Ch) (len : Nat) (f : Chan → Except TrapInfo Chan) (s : State) : Host.Outcome State Fault Refusal :=
  onChan c (runInstr len fun ch =>
    match f ch with
    | .error e => .error e
    | .ok ch => .ok (.jump ch)) s

/-- Continue at an address without firing a loop. -/
def goTo (ch : Chan) (a : Word) : Chan := { ch with ctl := { ch.ctl with pc := a } }

/-- JMP: a target with bits [23:19] not 0 raises UNDEF FIELD (R217). -/
def execJmp (c : Ch) (i : BitVec 24) (s : State) : Host.Outcome State Fault Refusal :=
  ctlJump c 4 (fun ch => if fld i 19 5 ≠ 0 then .error (undef 3) else .ok (goTo ch (i.setWidth 32))) s

/-- JMPS: the target is popped; one outside IMEM is refused by the fetch at the target (R217). -/
def execJmps (c : Ch) (s : State) : Host.Outcome State Fault Refusal :=
  ctlJump c 1 (stackOp 1 fun xs ch => .ok ([], goTo ch (top xs))) s

/-- The cells of a CALL frame below its return address, first to last (R175). -/
def callFrame (t : Ctl) (mask : Half) : List Word :=
  ((List.range 8).flatMap fun k => if bit mask k then [t.a.toList.getD k 0] else [])
    ++ (if bit mask 8 then nestCells t else [])
    ++ (if bit mask 9 then [BitVec.ofNat 32 t.vl] else [])
    ++ (if bit mask 10 then [flagsWord t] else [])
    ++ (if bit mask 11 then [t.fpctl.setWidth 32] else [])
    ++ [mask.setWidth 32]

/-- Push a CALL frame and jump. The return address is the next instruction's, or where a loop that fires there
continues, and the frame saves the nest as it stands after the firing (R175, R183). -/
def callTo (len : Nat) (mask : Half) (ch : Chan) (target : Word) : Except TrapInfo Chan :=
  let ch := arrive ch (nextPc ch len)
  match pushReturn ch (callFrame ch.ctl mask ++ [ch.ctl.pc]) with
  | .error e => .error e
  | .ok ch => .ok { ch with ctl := { ch.ctl with depth := if bit mask 8 then 0 else ch.ctl.depth, pc := target } }

/-- CALL (R175): a mask bit from 12 to 15, or a target with bits [23:19] not 0, raises UNDEF FIELD. -/
def execCall (c : Ch) (i : BitVec 24) (mask : Half) (s : State) : Host.Outcome State Fault Refusal :=
  ctlJump c 6 (fun ch =>
    if fld i 19 5 ≠ 0 ∨ fld mask 12 4 ≠ 0 then .error (undef 3)
    else callTo 6 mask ch (i.setWidth 32)) s

/-- CALLS: as CALL, with the target popped (R217). -/
def execCalls (c : Ch) (mask : Half) (s : State) : Host.Outcome State Fault Refusal :=
  ctlJump c 3 (fun ch =>
    if fld mask 12 4 ≠ 0 then .error (undef 3)
    else
      match fillData ch 1 with
      | .error e => .error e
      | .ok ch => trapIn ch (callTo 3 mask (takeData ch 1).2 (top (takeData ch 1).1))) s

/-- VL from a frame cell: a value above 256 sets 256, as a write of VSTAT does. (DEDUCED, log 19) -/
def vlOf (w : Word) : Nat := min w.toNat 256

/-- FPCTL from a value: one with RM 5 to 7 leaves FPCTL as it was (FPCTL card). (DEDUCED, log 19) -/
def setFpctl (t : Ctl) (w : Word) : Ctl := if fld w 0 3 > 4 then t else { t with fpctl := w.setWidth 10 }

/-- Pop a loop nest block and restore it; a depth cell above 4 raises STACK FRAME (R176, R195). -/
def popNest (ch : Chan) : Except TrapInfo Chan :=
  match popReturn ch 1 with
  | .error e => .error e
  | .ok (d, ch) =>
    if (top d).toNat > 4 then .error (metIn ch { vec := 4, cause := 8, addr := 0 })
    else
      match trapIn ch (popReturn ch (3 * (top d).toNat)) with
      | .error e => .error e
      | .ok (xs, ch) =>
        .ok { ch with ctl := { restoreNest (top d).toNat xs ch.ctl with depth := (top d).toNat } }

/-- Pop one return cell and apply it. -/
def popCell (f : Ctl → Word → Ctl) (ch : Chan) : Except TrapInfo Chan :=
  match popReturn ch 1 with
  | .error e => .error e
  | .ok (xs, ch) => .ok { ch with ctl := f ch.ctl (top xs) }

/-- A restoring step that a mask bit selects. -/
def restoreIf (on : Bool) (f : Chan → Except TrapInfo Chan) (ch : Chan) : Except TrapInfo Chan :=
  if on then f ch else .ok ch

/-- One step of a frame's restoration after another. -/
def andThen (r : Except TrapInfo Chan) (f : Chan → Except TrapInfo Chan) : Except TrapInfo Chan :=
  match r with
  | .error e => .error e
  | .ok ch => trapIn ch (f ch)

/-- Restore A7 to A0 in the reverse of their push order. -/
def restoreAs (mask : Half) : List (Fin 8) → Chan → Except TrapInfo Chan
  | [], ch => .ok ch
  | n :: t, ch =>
    andThen (restoreIf (bit mask n.val) (popCell fun ctl w => { ctl with a := ctl.a.set n w }) ch) (restoreAs mask t)

/-- A bad frame. -/
def badFrame : TrapInfo := { vec := 4, cause := 8, addr := 0 }

/-- RET's pop of a call frame (R176). A failed check leaves everything as it was, because the state before it is kept. -/
def returnCall (ch : Chan) : Except TrapInfo Chan :=
  match popReturn ch 2 with
  | .error e => .error e
  | .ok (xs, ch) =>
    let ret := top xs
    let w := second xs
    if fld w 16 16 ≠ 0 ∨ fld w 12 4 ≠ 0 then .error (metIn ch badFrame)
    else
      let mask : Half := w.setWidth 16
      let r := andThen (.ok ch) (restoreIf (bit mask 11) (popCell setFpctl))
      let r := andThen r (restoreIf (bit mask 10) (popCell setFlagsWord))
      let r := andThen r (restoreIf (bit mask 9) (popCell fun t x => { t with vl := vlOf x }))
      let r := andThen r (restoreIf (bit mask 8) popNest)
      let r := andThen r (restoreAs mask [7, 6, 5, 4, 3, 2, 1, 0])
      andThen r fun ch => .ok (goTo ch ret)

/-- RET (R176). -/
def execRet (c : Ch) (s : State) : Host.Outcome State Fault Refusal := ctlJump c 1 returnCall s

/-- RETI's pop of a trap frame (R195): the frame word must be exactly 0x0001_0B00. -/
def returnTrap (ch : Chan) : Except TrapInfo Chan :=
  match popReturn ch 2 with
  | .error e => .error e
  | .ok (xs, ch) =>
    if second xs ≠ trapFrameWord then .error (metIn ch badFrame)
    else
      let r := andThen (.ok ch) (popCell setStatusWord)
      let r := andThen r (popCell fun t x => { t with repc := x.setWidth 16 })
      let r := andThen r (popCell setFpctl)
      let r := andThen r (popCell fun t x => { t with vl := vlOf x })
      let r := andThen r popNest
      andThen r fun ch => .ok (goTo ch (top xs))

/-- RETI (R195). -/
def execReti (c : Ch) (s : State) : Host.Outcome State Fault Refusal := ctlJump c 1 returnTrap s

/-- BRK raises BREAK with cause BRK; its return address is where execution continues (R183, R194, R217). -/
def execBrk (c : Ch) (s : State) : Host.Outcome State Fault Refusal :=
  ctlJump c 1 (fun ch =>
    let ch := arrive ch (nextPc ch 1)
    .ok (takeTrap ch { vec := 11, cause := 1, addr := 0 } false ch.ctl.pc)) s

/-- LOOP opens a level (R182): LE must lie after LS and not above 0x8_0000, the nest must have room, and a count of 0
continues at LE. (DEDUCED, log 21) -/
def execLoop (c : Ch) (i : Half) (s : State) : Host.Outcome State Fault Refusal :=
  ctlJump c 3 (fun ch =>
    let ls := nextPc ch 3
    let le := ls + i.setWidth 32
    if i = 0 ∨ le.toNat > imemSize then .error (undef 3)
    else
      match fillData ch 1 with
      | .error e => .error e
      | .ok ch =>
        let n := top (takeData ch 1).1
        let ch := (takeData ch 1).2
        if ch.ctl.depth ≥ 4 then .error (metIn ch { vec := 4, cause := 5, addr := 0 })
        else if n = 0 then .ok (arrive ch le)
        else
          let t := setLevel ch.ctl ch.ctl.depth { ls := ls.setWidth 20, le := le.setWidth 20, lc := n }
          .ok (goTo { ch with ctl := { t with depth := ch.ctl.depth + 1 } } ls)) s

/-- ENDL closes the innermost level and continues at its LE, where the next level is checked (R184). -/
def execEndl (c : Ch) (s : State) : Host.Outcome State Fault Refusal :=
  ctlJump c 1 (fun ch =>
    if ch.ctl.depth = 0 then .error { vec := 4, cause := 9, addr := 0 }
    else
      let l := levelAt ch.ctl (ch.ctl.depth - 1)
      .ok (arrive { ch with ctl := { ch.ctl with depth := ch.ctl.depth - 1 } } (l.le.setWidth 32))) s

/-- The instruction that IMEM holds at an address. -/
def instrAt (c : Ch) (ch : Chan) (addr : Nat) : Option (Instr × Nat) := readInstr c (memBytes ch.mem.imem addr 6)

/-! ### The instruction after REP (R185, R186) -/

/-- The registers that a repeated OUT may not name (R186). -/
def repBarred (a : Nat) : Bool := decide (a = 0x100 ∨ a = 0x110 ∨ a = 0x111) || decide (0x114 ≤ a ∧ a ≤ 0x11F)

/-- R186 lists the instruction. -/
def repListed (i : Instr) : Bool :=
  match i with
  | .jmp _ _ | .jmps _ | .call _ _ _ | .calls _ _ | .ret _ | .reti _ | .brk _ | .loop _ _ | .endl _ | .rep _ _
  | .bcc _ _ _ => true
  | .ioOut _ a => repBarred a.toNat
  | _ => false

/-- The length of the instruction at an address, and whether R186 lists it. A reserved encoding is as long as the bytes that
show it to be one. (DESIGN CHOICE, log 5) -/
def nextAfter (c : Ch) (ch : Chan) (addr : Nat) : Nat × Bool :=
  match instrAt c ch addr with
  | some (i, n) => (n, repListed i)
  | none => (reservedLen (memByte ch.mem.imem addr), false)

/-- REP n (R185, R186), on the instruction that IMEM holds after it. With n = 0 that instruction is passed over, and the
address after it is checked for loops at once (R183). -/
def execRep (c : Ch) (n : Half) (s : State) : Host.Outcome State Fault Refusal :=
  ctlJump c 3 (fun ch =>
    let k := nextAfter c ch (nextPc ch 3).toNat
    let on := { ch with ctl := { ch.ctl with repc := n, repact := decide (n ≠ 0) } }
    if k.2 then .error (undef 4)
    else if n = 0 then .ok (arrive on (nextPc ch (3 + k.1)))
    else .ok (goTo on (nextPc ch 3))) s

/-- Bcc (R218): a taken branch continues at the next instruction's address plus rel16 and fires no loop (R183). A target
below 0 wraps modulo 2^32, and the fetch there is refused. (DEDUCED, log 127) -/
def execBcc (c : Ch) (cc : BitVec 4) (i : Half) (s : State) : Host.Outcome State Fault Refusal :=
  onChan c (runInstr 3 fun ch =>
    if condHolds ch.ctl cc then .ok (.jump (goTo ch (nextPc ch 3 + i.signExtend 32))) else .ok (.seq ch)) s

/-- An OUT to CH_PWR_CTL that a trap interrupts withdraws its request; the OUT makes it again when it executes again
(R200, R417). (DEDUCED, log 64) -/
def withdrawDoze (ch : Chan) : Chan :=
  match ch.ev.wait with
  | some { kind := .out _ _ _, len := _ } => { ch with pwr := { ch.pwr with reqCtl := false } }
  | some { kind := .doze, len := _ } => { ch with pwr := { ch.pwr with reqCtl := false } }
  | _ => ch

/-- A wait of the controller ends and the instruction completes: execution continues after it (R199). -/
def endWait (ch : Chan) (len : Nat) : Chan :=
  afterInstr (advance { ch with ev := { ch.ev with wait := none } } len)

/-- A WFI whose wait an event ends has completed before the event is taken (R224). -/
def finishWfi (ch : Chan) : Chan :=
  match ch.ev.wait with
  | some { kind := .wfi, len := n } => endWait ch n
  | _ => ch

/-- A pending asynchronous event is taken at an instruction boundary or within a wait (R193, R194, R200). The return
address is the next instruction to execute, or the waiting one. -/
def execAsyncTrapEntry (c : Ch) (s : State) : Host.Outcome State Fault Refusal :=
  onChan c (fun ch =>
    if ctlGoes ch then
      match takeable ch with
      | none => ch
      | some i =>
        let ch := finishWfi (withdrawDoze ch)
        takeTrap (clearTaken ch i) i true ch.ctl.pc
    else ch) s

end Sys2Proof.Machine
end

