-- ==== Sys2Proof/Machine/MillImage.lean ====
section
/-! DEFINITION. CRC-32C, and the check of a mill image payload (R301, Mill images). -/

namespace Sys2Proof.Machine

/-! ### CRC-32C: the Castagnoli polynomial, reflected, with all-ones start and final inversion -/

/-- Eight bit steps. -/
def crcSteps : Nat → Word → Word
  | 0, c => c
  | n + 1, c => crcSteps n (if bit c 0 then (c >>> 1) ^^^ 0x82F63B78#32 else c >>> 1)

/-- The CRC register after bytes. -/
def crcRun (c : Word) (bs : List Byte) : Word := bs.foldl (fun c b => crcSteps 8 (c ^^^ b.setWidth 32)) c

/-- CRC-32C of bytes. (PRESUMED, log 54) -/
def crc32c (bs : List Byte) : Word := ~~~(crcRun 0xFFFFFFFF#32 bs)

/-! ### Reading a payload -/

/-- The little-endian cell at a byte offset. -/
def cellAt (bs : List Byte) (off : Nat) : Word := BitVec.ofNat 32 (bytesNat ((bs.drop off).take 4))

/-- The little-endian half-word at a byte offset. -/
def halfAt (bs : List Byte) (off : Nat) : Half := BitVec.ofNat 16 (bytesNat ((bs.drop off).take 2))

/-- All bytes of a range are 0. -/
def zeros (bs : List Byte) (off n : Nat) : Bool := ((bs.drop off).take n).all fun b => decide (b = 0)

/-- A frame of the payload: cell 0, the 512 data bytes, and whether its CRC matches. -/
structure MFrame where
  head : Word
  data : List Byte
  ok   : Bool
  deriving DecidableEq, Repr

/-- The frames from an offset. -/
def framesFrom : Nat → List Byte → List MFrame
  | 0, _ => []
  | n + 1, bs =>
    { head := cellAt bs 0, data := (bs.drop 4).take 512
      ok := decide (cellAt bs 516 = crc32c (bs.take 516)) } :: framesFrom n (bs.drop 520)

/-- The frame's address. -/
def frameAddr (f : MFrame) : Nat := fld f.head 0 16

/-- The address is a cell frame's or a block RAM frame's. -/
def frameKnown (a : Nat) : Bool := decide (a < 0x800) || decide (0x1000 ≤ a ∧ a < 0x1200)

/-- The cell records of the frames. -/
def imageCells (fs : List MFrame) : List (Nat × BitVec 256) :=
  (fs.filter fun f => decide (frameAddr f < 0x800)).foldl (fun acc f =>
    (List.range 16).foldl (fun acc j =>
      sparseSet 0 acc (cellIx (frameAddr f / 32) (16 * (frameAddr f % 32) + j))
        (BitVec.ofNat 256 (bytesNat ((f.data.drop (32 * j)).take 32)))) acc) []

/-- The block RAM words of the frames. -/
def imageRam (fs : List MFrame) : List (Nat × Word) :=
  (fs.filter fun f => decide (frameAddr f ≥ 0x1000)).foldl (fun acc f =>
    let a := frameAddr f - 0x1000
    (List.range 128).foldl (fun acc j =>
      sparseSet 0 acc (1024 * (a / 8) + 128 * (a % 8) + j) (cellAt f.data (4 * j))) acc) []

/-- The image that a payload describes. -/
def imageOf (bs : List Byte) : MillImage :=
  let fs := framesFrom (cellAt bs 12).toNat (bs.drop 576)
  { id := cellAt bs 8
    clk := Vector.ofFn fun i : Fin 4 => cellAt bs (64 + 4 * i.val)
    rate := cellAt bs 80
    ramCfg := Vector.ofFn fun i : Fin 64 => bs.getD (96 + i.val) 0
    fmts := Vector.ofFn fun i : Fin 16 => BitVec.ofNat 128 (bytesNat ((bs.drop (160 + 16 * i.val)).take 16))
    cells := imageCells fs
    ram := imageRam fs }

/-! ### The nine conditions of R301 -/

/-- 1: header magic, version, length or payload CRC. -/
def badHeader (bs : List Byte) : Bool :=
  !(decide (cellAt bs 0 = 0x4C4C494D#32) && decide (cellAt bs 4 = 1#32)
    && decide ((cellAt bs 16).toNat = bs.length) && decide (bs.length = 576 + 520 * (cellAt bs 12).toNat)
    && decide (cellAt bs 20 = crc32c (bs.drop 64)))

/-- 2: a frame's CRC fails, or an address is unknown or repeated. -/
def badFrames (fs : List MFrame) : Bool :=
  fs.any (fun f => !f.ok || !frameKnown (frameAddr f)) || decide (¬ (fs.map frameAddr).Nodup)

/-- A format table entry has a reserved bit set. -/
def fmtReserved (e : BitVec 128) : Bool :=
  decide (fld e 6 2 ≠ 0 ∨ fld e 16 16 ≠ 0 ∨ fld e 41 7 ≠ 0 ∨ fld e 57 7 ≠ 0 ∨ fld e 70 58 ≠ 0)

/-- 3: a reserved bit or field. -/
def badReserved (bs : List Byte) (fs : List MFrame) (i : MillImage) : Bool :=
  !zeros bs 24 40 || !zeros bs 84 12 || !zeros bs 416 160
    || fs.any (fun f => decide (fld f.head 16 16 ≠ 0))
    || i.clk.toList.any (fun c => decide (fld c 21 11 ≠ 0))
    || i.ramCfg.toList.any (fun b => decide (fld b 3 5 ≠ 0))
    || i.fmts.toList.any fmtReserved
    || i.cells.any (fun p => decide (fld p.2 205 51 ≠ 0))

/-- 4: an IMUX select with more than one bit. -/
def badSelects (i : MillImage) : Bool :=
  i.cells.any fun p => (List.range 8).any fun j => decide (popNat 4 (imux p.2 j) > 1)

/-- The long line that a DRIVE bit of a cell names: kind 0 to 3, and the row or column. -/
def linesOf (p : Nat × BitVec 256) : List (Nat × Nat) :=
  (List.range 4).flatMap fun l => if bit p.2 (200 + l) then [(l, if l < 2 then p.1 % 512 else p.1 / 512)] else []

/-- 5: a long line with more than one driving cell. -/
def badLines (i : MillImage) : Bool := decide (¬ (i.cells.flatMap linesOf).Nodup)

/-- A lane number is used by a VALID format. -/
def laneUsed (i : MillImage) (l : Nat) : Bool := i.fmts.toList.any fun e => fmtValid e && decide (l < fmtLanes e)

/-- The cell has a boundary driver, of a lane in use where it is a RESULT cell. -/
def hasDriver (i : MillImage) (k : Nat) : Bool :=
  let c := k / 512
  let r := k % 512
  (decide (c % 2 = 1 ∧ r < 256) && laneUsed i (c % 16 / 2))
    || decide (16 ≤ c ∧ c < 32 ∧ 320 ≤ r ∧ r < 352)
    || decide (c < 16 ∧ r = 352)
    || decide (c = 63 ∧ 352 ≤ r ∧ r < 416)
    || decide (464 ≤ r ∧ r < 507)

/-- 6: BDRV at a cell without a boundary driver. -/
def badDrivers (i : MillImage) : Bool := i.cells.any fun p => bit p.2 204 && !hasDriver i p.1

def ckSource (c : Word) : Nat := fld c 0 3
def ckN (c : Word) : Nat := fld c 3 8
def ckMul (c : Word) : Nat := fld c 11 6 + 1
def ckDiv (c : Word) : Nat := fld c 17 4 + 1

/-- A clock tree's parameters are out of range, or it exceeds 800 MHz (R297; ARRAYCLK is 3.2 GHz ÷ n). Every
tap rate code that passes names a rate of R299, so none is unused. (DEDUCED, log 55) -/
def badClock (c : Word) : Bool :=
  match ckSource c with
  | 0 => false
  | 1 => decide (ckN c < 4)
  | 2 => decide (ckMul c < 4 ∨ 100 * ckMul c > 800 * ckDiv c)
  | 3 => false
  | 4 => false
  | _ => true

/-- 7: a clock tree or the tap rate. -/
def badClocks (i : MillImage) : Bool := i.clk.toList.any badClock || decide (i.rate.toNat > 10)

/-- 8: a VALID format entry. -/
def badFormats (i : MillImage) : Bool :=
  i.fmts.toList.any fun e =>
    fmtValid e && decide (fmtDirs e = 0 ∨ fmtLat e = 0 ∨ fmtWmin e = 0 ∨ fmtWmax e < fmtWmin e ∨ fmtWmax e > 256
      ∨ fmtEsizes e = 0)

/-- The cells whose combinational output a cell's combinational output reads. -/
def combDeps (cfg : List (Nat × BitVec 256)) (k : Nat) : List Nat :=
  let r := cellRec cfg k
  ((List.range (if bit r 198 then 5 else 6)).flatMap fun j =>
    match lowBit (imux r j) with
    | none => []
    | some i =>
      match fabSource cfg k i with
      | .cell (some k') => if bit (cellRec cfg k') 199 then [] else [k']
      | _ => [])
    ++ (if bit r 198 && decide (k % 512 ≠ 0) && bit (cellRec cfg (k - 1)) 198 then [k - 1] else [])

/-- Remove the cells that depend on none left, round by round. -/
def peel (cfg : List (Nat × BitVec 256)) : Nat → List Nat → List Nat
  | 0, ks => ks
  | n + 1, ks => peel cfg n (ks.filter fun k => (combDeps cfg k).any (· ∈ ks))

/-- 9: a combinational loop. -/
def badLoop (i : MillImage) : Bool := decide (peel i.cells i.cells.length (i.cells.map (·.1)) ≠ [])

/-- Check a payload: the number of the first condition found, or the image (R301). -/
def checkImage (bs : List Byte) : Except Nat MillImage :=
  let fs := framesFrom (cellAt bs 12).toNat (bs.drop 576)
  let i := imageOf bs
  if badHeader bs then .error 1
  else if badFrames fs then .error 2
  else if badReserved bs fs i then .error 3
  else if badSelects i then .error 4
  else if badLines i then .error 5
  else if badDrivers i then .error 6
  else if badClocks i then .error 7
  else if badFormats i then .error 8
  else if badLoop i then .error 9
  else .ok i

end Sys2Proof.Machine
end

