-- ==== Sys2Proof/Machine/Planes.lean ====
section
/-! DEFINITION. Planes, truth tables, the exchange network, channel edges, plane ECC and the tun map (R32 to R61). -/

namespace Sys2Proof.Machine

/-! ### Planes and truth tables -/

/-- A plane (R53): one that nothing has written since channel restart reads 0. -/
def planeOf (ch : Chan) (p : Nat) : Sheet := sparseGet 0#1048576 ch.arr.planes p

/-- Write a whole plane. -/
def setPlane (ch : Chan) (p : Nat) (x : Sheet) : Chan :=
  { ch with arr := { ch.arr with planes := sparseSet 0#1048576 ch.arr.planes p x } }

/-- One minterm of a truth table: the PEs whose inputs make index `i`. -/
def minterm (i : Nat) (a b c : Sheet) : Sheet :=
  (if i / 4 % 2 = 1 then a else ~~~a) &&& (if i / 2 % 2 = 1 then b else ~~~b) &&& (if i % 2 = 1 then c else ~~~c)

/-- An 8-bit table indexed by 4·A + 2·B + C in every PE (02, Truth tables). -/
def applyTable (t : Nat) (a b c : Sheet) : Sheet :=
  (List.range 8).foldl (fun acc i => if t / 2 ^ i % 2 = 1 then acc ||| minterm i a b c else acc) 0#1048576

/-- A table depends on A when two indexes that differ only in A give different bits (R38). -/
def dependsA (t : Nat) : Bool := decide (t / 16 ≠ t % 16)

/-- As `dependsA`, for B. -/
def dependsB (t : Nat) : Bool :=
  decide (t % 4 ≠ t / 4 % 4) || decide (t / 16 % 4 ≠ t / 64 % 4)

/-! ### Rows and columns of a sheet -/

/-- The sheet whose column 0 is 1 in every row. -/
def colUnit : Sheet := BitVec.ofNat 1048576 ((2 ^ 1048576 - 1) / (2 ^ 1024 - 1))

/-- The sheet that is 1 in columns below `k`. -/
def colsBelow (k : Nat) : Sheet := colUnit * BitVec.ofNat 1048576 (2 ^ k - 1)

/-- The `2 ^ k` bits of column 0 of as many rows, lowest row first. -/
def gatherCol : Nat → Nat → Nat
  | 0, y => y % 2
  | k + 1, y =>
    if y = 0 then 0
    else gatherCol k (y % 2 ^ (1024 * 2 ^ k)) + gatherCol k (y / 2 ^ (1024 * 2 ^ k)) * 2 ^ 2 ^ k

/-- The opposite of `gatherCol`: bit `r` goes to column 0 of row `r`. -/
def scatterCol : Nat → Nat → Nat
  | 0, y => y % 2
  | k + 1, y =>
    if y = 0 then 0
    else scatterCol k (y % 2 ^ 2 ^ k) + scatterCol k (y / 2 ^ 2 ^ k) * 2 ^ (1024 * 2 ^ k)

/-- Column `c` as a line of 1,024 bits, row 0 in bit 0. -/
def colLine (s : Sheet) (c : Nat) : BitVec 1024 := BitVec.ofNat 1024 (gatherCol 10 (s.toNat / 2 ^ c))

/-- Row `r` as a line. -/
def rowLine (s : Sheet) (r : Nat) : BitVec 1024 := s.extractLsb' (1024 * r) 1024

/-- A line placed in column `c`. -/
def placeCol (l : BitVec 1024) (c : Nat) : Sheet := BitVec.ofNat 1048576 (scatterCol 10 l.toNat) <<< c

/-- A line placed in row `r`. -/
def placeRow (l : BitVec 1024) (r : Nat) : Sheet := l.setWidth 1048576 <<< (1024 * r)

/-- Line `j` of a slot. -/
def slotLine (s : Slot) (j : Nat) : BitVec 1024 := s.lines.extractLsb' (1024 * j) 1024

/-! ### Edges and hops. Edges and directions are numbered N 0, E 1, S 2, W 3. -/

/-- The mode of an edge: 0 WRAP, 1 KEG, 2 ZERO (ARRAY_EDGE_CTL). -/
def edgeMode (ch : Chan) (d : Nat) : Nat := fld ch.arr.edgeCtl (2 * d) 2

/-- The export depth of an edge, 1 or 16 lines. -/
def edgeDepth (ch : Chan) (d : Nat) : Nat := if bit ch.arr.edgeCtl (8 + d) then 16 else 1

/-- The edge of a direction. -/
def edgeAt (ch : Chan) (d : Nat) : Edge := ch.arr.edges.toList.getD d { buf := [], outstanding := 0 }

/-- Replace an edge. -/
def setEdge (ch : Chan) (d : Nat) (e : Edge) : Chan :=
  { ch with arr := { ch.arr with edges := Vector.ofFn fun i : Fin 4 => if i.val = d then e else ch.arr.edges[i] } }

/-- The edge is not in KEG mode, or its head slot is present (R76, EDGE_N to EDGE_W). -/
def edgeReady (ch : Chan) (d : Nat) : Bool := decide (edgeMode ch d ≠ 1) || decide ((edgeAt ch d).buf ≠ [])

/-- The edge is not in KEG mode, or fewer than 64 of its slots are outstanding (R46, R76 CRED_ALL). -/
def creditReady (ch : Chan) (d : Nat) : Bool :=
  decide (edgeMode ch d ≠ 1) || decide ((edgeAt ch d).outstanding < 64)

/-- The direction that an exchange code 1 to 8 names (R34, R39). -/
def hopDir (k : Nat) : Nat := (k - 1) % 4

/-- The distance that an exchange code names. -/
def hopDist (k : Nat) : Nat := if k ≤ 4 then 1 else 16

/-- Which lines of a head slot a hop of distance `d` reads, with the row or column beyond the near end of its band that
each goes to (R44). Across N and W the band is the first `d` lines of this channel, and the slot's last line is nearest
to it; across S and E it is the last `d`, and the slot's first line is nearest. -/
def hopLines (dir d : Nat) (deep : Bool) : List (Nat × Nat) :=
  if dir = 0 ∨ dir = 3 then
    (if deep then (List.range d).map fun t => (16 - d + t, t) else [(0, d - 1)])
  else (if deep then (List.range d).map fun t => (t, t) else [(0, 0)])

/-- What a hop brings across a KEG edge, in its place in the sheet (R44). -/
def hopEdge (slot : Slot) (dir d : Nat) : Sheet :=
  let base := if dir = 0 ∨ dir = 3 then 0 else 1024 - d
  (hopLines dir d slot.deep).foldl (fun acc p =>
    acc ||| (if dir % 2 = 0 then placeRow (slotLine slot p.1) (base + p.2)
      else placeCol (slotLine slot p.1) (base + p.2))) 0#1048576

/-- What a hop brings across an edge in WRAP mode: the value at the position taken modulo 1,024 (R41). -/
def hopWrap (x : Sheet) (dir d : Nat) : Sheet :=
  match dir with
  | 0 => x >>> (1024 * (1024 - d))
  | 1 => (x &&& colsBelow d) <<< (1024 - d)
  | 2 => x <<< (1024 * (1024 - d))
  | _ => (x >>> (1024 - d)) &&& colsBelow d

/-- What a hop brings from inside the channel. -/
def hopInside (x : Sheet) (dir d : Nat) : Sheet :=
  match dir with
  | 0 => x <<< (1024 * d)
  | 1 => (x >>> d) &&& colsBelow (1024 - d)
  | 2 => x >>> (1024 * d)
  | _ => (x <<< d) &&& ~~~(colsBelow d)

/-- The sheet of values that exchange code `k` reads: every PE its neighbour's start-of-cycle X (R34, R39, R41). -/
def hop (ch : Chan) (k : Nat) : Sheet :=
  let dir := hopDir k
  let d := hopDist k
  hopInside ch.arr.x dir d |||
    (match edgeMode ch dir with
    | 0 => hopWrap ch.arr.x dir d
    | 1 =>
      match (edgeAt ch dir).buf with
      | s :: _ => hopEdge s dir d
      | [] => 0#1048576
    | _ => 0#1048576)

/-- A hop reads a line that a one-line slot does not hold (R44). -/
def hopShort (ch : Chan) (k : Nat) : Bool :=
  decide (edgeMode ch (hopDir k) = 1) && decide (hopDist k = 16) &&
    (match (edgeAt ch (hopDir k)).buf with
    | s :: _ => !s.deep
    | [] => false)

/-- The slot that an export of sheet `x` across edge `d` sends (R43). -/
def exportSlot (ch : Chan) (d : Nat) (x : Sheet) : Slot :=
  let n := edgeDepth ch d
  let base := if d = 0 ∨ d = 3 then 0 else 1024 - n
  { deep := bit ch.arr.edgeCtl (8 + d)
    lines := (List.range n).foldl (fun acc j =>
      acc ||| ((if d % 2 = 0 then rowLine x (base + j) else colLine x (base + j)).setWidth 16384 <<< (1024 * j)))
      0#16384 }

/-- The edges that an EXPORT code names (R42). -/
def exportEdges (k : Nat) : List Nat :=
  match k with
  | 0 => []
  | 1 => [0]
  | 2 => [1]
  | 3 => [2]
  | 4 => [3]
  | 5 => [0, 2]
  | 6 => [1, 3]
  | _ => [0, 1, 2, 3]

/-- The keg port that carries an edge (R16, R309): −X 0, +X 1, −Y 2, +Y 3. -/
def edgePort (d : Nat) : Nat :=
  match d with
  | 0 => 2
  | 1 => 1
  | 2 => 3
  | _ => 0

/-- Replace the link of a port. -/
def setLink (ch : Chan) (p : Nat) (f : Link → Link) : Chan :=
  { ch with keg := { ch.keg with
    links := Vector.ofFn fun i : Fin 6 => if i.val = p then f ch.keg.links[i] else ch.keg.links[i] } }

/-- A slot goes to the port of an edge. -/
def sendSlot (d : Nat) (x : Slot) (ch : Chan) : Chan :=
  setLink ch (edgePort d) fun l => { l with txEdges := l.txEdges ++ [x] }

/-- The port of an edge returns a credit for a retired slot. -/
def sendCredit (d : Nat) (ch : Chan) : Chan := setLink ch (edgePort d) fun l => { l with ecred := l.ecred + 1 }

/-- Send one slot across a KEG edge: it is outstanding until the adjacent channel retires it (R43, R46). The members of a
pair compare it first (R404). -/
def exportOne (x : Sheet) (ch : Chan) (d : Nat) : Chan :=
  if edgeMode ch d = 1 then
    let e := edgeAt ch d
    let slot := exportSlot ch d x
    let ch := setEdge ch d { e with outstanding := e.outstanding + 1 }
    if inPair ch then pushCopy ch (.slot d slot) else sendSlot d slot ch
  else ch

/-- Retire the head slot of a KEG edge, which returns a credit to the exporting channel (R45), in a pair once both members
have retired it (R404). -/
def retireOne (ch : Chan) (d : Nat) : Chan :=
  let e := edgeAt ch d
  let ch := setEdge ch d { e with buf := e.buf.drop 1 }
  if inPair ch then pushCopy ch (.retire d) else sendCredit d ch

/-! ### The tun map (R58, R60) -/

/-- The physical position of logical tun column `tc` in tun row `tr`: one step east of a position out of service. -/
def physPos (ch : Chan) (tr tc : Nat) : Nat :=
  if tc ≥ (ch.arr.tunMap.toList.getD tr 8).toNat then tc + 1 else tc

/-- The UNIT of a log entry for a tun, 9·tr + p (R401). -/
def tunUnit (ch : Chan) (tr tc : Nat) : Byte := BitVec.ofNat 8 (9 * tr + physPos ch tr tc)

/-- The logical tun, 8·tr + tc, that holds plane code word `w` = row · 16 + j (R54). -/
def tunOfWord (w : Nat) : Nat := w / 16 / 128 * 8 + w % 16 / 2

/-- The UNIT of the tun that holds a code word. -/
def wordUnit (ch : Chan) (w : Nat) : Byte := tunUnit ch (tunOfWord w / 8) (tunOfWord w % 8)

/-- The physical tun number, 9·tr + p, is in service. -/
def inService (ch : Chan) (u : Nat) : Bool := decide ((ch.arr.tunMap.toList.getD (u / 9) 8).toNat ≠ u % 9)

/-- The logical tun at a physical position in service. -/
def logicalTun (ch : Chan) (u : Nat) : Nat :=
  let out := (ch.arr.tunMap.toList.getD (u / 9) 8).toNat
  8 * (u / 9) + (if u % 9 > out then u % 9 - 1 else u % 9)

/-! ### A borrowed plane region (R248, R249) -/

/-- A plane is written in some tuns, wholly or in part: where writes go to both copies of a borrowed region of one of them,
the other copy takes the same (R248). -/
def notePlane (ch : Chan) (p : Nat) (tuns : Nat → Bool) (v : SpareCell) : Chan :=
  let u := ch.mem.spP.region.toNat / 64
  if inService ch u && tuns (logicalTun ch u) then
    { ch with mem := { ch.mem with spP := noteCell ch.mem.spP (64 * u + p / 64) (p % 64) v } }
  else ch

/-! ### Plane ECC (R54 to R57) -/

/-- The uncorrectable code words of a plane. -/
def planeUes (ch : Chan) (p : Nat) : List Nat :=
  (ch.arr.marks.filter fun m => decide (m.plane = p) && m.ue).map (·.word)

/-- The code words of a plane with a single-bit error. -/
def planeCes (ch : Chan) (p : Nat) : List Nat :=
  (ch.arr.marks.filter fun m => decide (m.plane = p) && !m.ue).map (·.word)

/-- A corrected plane error is counted and reported, CE 0x01 (R55, R394). -/
def countPlaneCe (ch : Chan) (p w : Nat) : Chan :=
  report { ch with arr := { ch.arr with planeCe := satInc ch.arr.planeCe 1 } }
    .ce 0x01 (wordUnit ch w) (BitVec.ofNat 32 p)

/-- A read finds a single-bit error in a code word of a plane, which is counted and waits to be written back (R55). -/
def meetPlaneCe (p : Nat) (ch : Chan) (w : Nat) : Chan :=
  let ch := countPlaneCe ch p w
  if (p, w) ∈ ch.arr.writeback then ch
  else { ch with arr := { ch.arr with writeback := ch.arr.writeback ++ [(p, w)] } }

/-- A read of a plane finds its single-bit errors: the PEs receive corrected data, and the corrected code words wait to
be written back (R55). -/
def readCes (ch : Chan) (p : Nat) : Chan := (planeCes ch p).foldl (meetPlaneCe p) ch

/-- As `readCes`, for a read of some code words of the plane. -/
def readWordCes (ch : Chan) (p : Nat) (ws : List Nat) : Chan :=
  ((planeCes ch p).filter (· ∈ ws)).foldl (meetPlaneCe p) ch

/-- A write of a whole plane regenerates the check bits of all its code words (R54). -/
def clearMarks (ch : Chan) (p : Nat) : Chan :=
  { ch with arr := { ch.arr with
    marks := ch.arr.marks.filter fun m => decide (m.plane ≠ p)
    writeback := ch.arr.writeback.filter fun x => decide (x.1 ≠ p) } }

/-- All 64 PEs of a code word are enabled. -/
def wholeWord (en : Sheet) (w : Nat) : Bool := decide (en.extractLsb' (64 * w) 64 = BitVec.allOnes 64)

/-- An uncorrectable plane read, UCC 0x02 (R56, R394). -/
def reportPlaneUe (ch : Chan) (p w : Nat) : Chan := report ch .ucc 0x02 (wordUnit ch w) (BitVec.ofNat 32 p)

/-- GUARDED mode (R403). -/
def guarded (ch : Chan) : Bool := decide (ch.err.mode = 1#2)

/-- In GUARDED mode, a written plane joins the pending set of every tun (R403). -/
def noteVerify (ch : Chan) (p : Nat) : Chan :=
  if guarded ch then
    { ch with arr := { ch.arr with
      verify := (ch.arr.verify ++ (List.range 64).map fun t => 4096 * t + p).eraseDups } }
  else ch

/-- A whole-plane write under WEN ALL, which reads no old D (R57). -/
def putPlane (ch : Chan) (p : Nat) (x : Sheet) : Chan :=
  notePlane (noteVerify (clearMarks (setPlane ch p x) p) p) p (fun _ => true) .same

/-- Write a plane in the PEs of a mask. A code word keeps an uncorrectable mark unless the mask covers all of it
(R54, R57, R393). -/
def putMasked (ch : Chan) (p : Nat) (x en : Sheet) : Chan :=
  let ch' := setPlane ch p ((x &&& en) ||| (planeOf ch p &&& ~~~en))
  let ch' := { ch' with arr := { ch'.arr with
    marks := ch'.arr.marks.filter fun m => decide (m.plane ≠ p) || (m.ue && !wholeWord en m.word)
    writeback := ch'.arr.writeback.filter fun x => decide (x.1 ≠ p) } }
  notePlane (noteVerify ch' p) p (fun _ => true) .same

end Sys2Proof.Machine
end

