-- ==== Sys2Proof/Machine/Packet.lean ====
section
/-! DEFINITION. Packet headers, the route of a packet and its way into and out of the router (R323 to R328). -/

namespace Sys2Proof.Machine

/-! ### Header fields (R323) -/

/-- Cell `k` of a header flit. -/
def hcell (p : Packet) (k : Nat) : Word := p.hdr.extractLsb' (32 * k) 32

def pKind (p : Packet) : Nat := fld (hcell p 0) 0 4
def pFlits (p : Packet) : Nat := fld (hcell p 0) 4 4
def pNotify (p : Packet) : Bool := bit (hcell p 0) 8
def pDest (p : Packet) : Half := (hcell p 0).extractLsb' 16 16
def pSrc (p : Packet) : Half := (hcell p 1).extractLsb' 0 16
def pTag (p : Packet) : Nat := fld (hcell p 1) 16 12
def pRoute (p : Packet) : Word := hcell p 2
def pAddr (p : Packet) : Nat := (hcell p 3).toNat + (hcell p 4).toNat * 2 ^ 32
def pBytes (p : Packet) : Nat := fld (hcell p 5) 0 10
def pReason (p : Packet) : Nat := fld (hcell p 5) 10 6
def pCid (p : Packet) : Half := (hcell p 8).extractLsb' 0 16
def pSqid (p : Packet) : Half := (hcell p 8).extractLsb' 16 16

/-- Bits of a header placed at a cell. -/
def atCell (k : Nat) (w : Word) : BitVec 512 := w.setWidth 512 <<< (32 * k)

/-- Replace cell 2, the route, of a header. -/
def setRoute (p : Packet) (w : Word) : Packet :=
  { p with hdr := (p.hdr &&& ~~~(atCell 2 0xFFFFFFFF)) ||| atCell 2 w }

/-! ### Routes (R11, R312, R324) -/

def gxOf (a : Half) : Nat := fld a 10 6
def gyOf (a : Half) : Nat := fld a 4 6
def gzOf (a : Half) : Nat := fld a 0 4

/-- The ring size of a dimension, 0 X, 1 Y, 2 Z (R312). -/
def ringSize (k : Keg) (dim : Nat) : Nat :=
  match dim with
  | 0 => 4 * (k.nxm1.toNat + 1)
  | 1 => 4 * (k.nym1.toNat + 1)
  | _ => k.nzm1.toNat + 1

/-- A coordinate of an address, modulo its ring size (R312). -/
def coord (k : Keg) (a : Half) (dim : Nat) : Nat :=
  (match dim with
  | 0 => gxOf a
  | 1 => gyOf a
  | _ => gzOf a) % ringSize k dim

/-- Hops and direction of one dimension (R324): + for d hops when d ≤ S ÷ 2, else − for S − d. -/
def hopsOf (s o t : Nat) : Nat × Bool :=
  let d := (t + s - o) % s
  if 2 * d ≤ s then (d, false) else (s - d, true)

/-- The hop fields of one dimension in header cell 2. -/
def hopField (k : Keg) (dest : Half) (dim : Nat) : Nat :=
  let h := hopsOf (ringSize k dim) (coord k k.own dim) (coord k dest dim)
  (h.1 + b2n h.2 * 128) * 2 ^ (8 * dim)

/-- The dimension being travelled. -/
def rDim (r : Word) : Nat := fld r 24 2

/-- The hops that remain in a dimension. -/
def rHops (r : Word) (dim : Nat) : Nat := fld r (8 * dim) 7

/-- The direction of a dimension: true is −. -/
def rMinus (r : Word) (dim : Nat) : Bool := bit r (8 * dim + 7)

/-- DIM advances past every dimension with no hops left, entering the next on VC0 (R324, R325). -/
def advanceDim : Nat → Word → Word
  | 0, r => r
  | n + 1, r =>
    if rDim r < 3 ∧ rHops r (rDim r) = 0 then advanceDim n ((r &&& ~~~0x04000000#32) + 0x01000000#32) else r

/-- Header cell 2 at injection. -/
def startRoute (k : Keg) (dest : Half) : Word :=
  advanceDim 3 (BitVec.ofNat 32 (hopField k dest 0 + hopField k dest 1 + hopField k dest 2))

/-- The port of a dimension and direction (R310). -/
def dimPort (dim : Nat) (minus : Bool) : Nat := 2 * dim + (if minus then 0 else 1)

/-! ### Building packets -/

/-- A header with its route from this channel (R323, R324). -/
def mkHeader (k : Keg) (kind flits : Nat) (notify : Bool) (dest : Half) (tag : Nat) (addr : Nat) (bytes reason : Nat)
    (c6 c7 c8 : Word) : BitVec 512 :=
  atCell 0 (BitVec.ofNat 32 (kind + flits * 16 + b2n notify * 256 + dest.toNat * 65536))
    ||| atCell 1 (BitVec.ofNat 32 (k.addr.toNat + tag * 65536)) ||| atCell 2 (startRoute k dest)
    ||| atCell 3 (BitVec.ofNat 32 addr) ||| atCell 4 (BitVec.ofNat 32 (addr / 2 ^ 32))
    ||| atCell 5 (BitVec.ofNat 32 (bytes + reason * 1024)) ||| atCell 6 c6 ||| atCell 7 c7 ||| atCell 8 c8

/-- Payload flits from bytes, the last one filled with zeros. -/
def payload : Nat → List Byte → List (BitVec 512)
  | 0, _ => []
  | n + 1, bs => if bs = [] then [] else BitVec.ofNat 512 (bytesNat (bs.take 64)) :: payload n (bs.drop 64)

/-- The payload bytes of a packet, as many as BYTES says. -/
def payloadBytes (p : Packet) : List Byte := ((p.flits.flatMap fun f => natBytes 64 f.toNat).take (pBytes p))

/-! ### The router -/

/-- The router discards a packet: counted, flagged and logged as an event (R326, R328, R394). -/
def discardPacket (ch : Chan) (port : Nat) : Chan :=
  report { ch with keg := { ch.keg with discard := true, discards := satInc16 ch.keg.discards 1 } }
    .event 0x1B (BitVec.ofNat 8 port) 0

/-- A packet is ejected to its destination channel (R277, R324, R329, R330). -/
def eject (ch : Chan) (p : Packet) : Chan :=
  match pKind p with
  | 3 => { ch with rack := { ch.rack with images := ch.rack.images ++ [p] } }
  | 4 => { ch with rack := { ch.rack with responses := ch.rack.responses ++ [p] } }
  | 5 => { ch with rack := { ch.rack with mgmt := ch.rack.mgmt ++ [p] } }
  | _ => { ch with rack := { ch.rack with inq := ch.rack.inq ++ [p] } }

/-- The link of a port. -/
def linkAt (ch : Chan) (p : Nat) : Link := ch.keg.links.toList.getD p Link.reset

/-- The port's registers. -/
def portAt (ch : Chan) (p : Nat) : Port := ch.keg.ports.toList.getD p Port.reset

/-- Replace a port. -/
def setPort (ch : Chan) (p : Nat) (f : Port → Port) : Chan :=
  { ch with keg := { ch.keg with
    ports := Vector.ofFn fun i : Fin 6 => if i.val = p then f ch.keg.ports[i] else ch.keg.ports[i] } }

/-- A packet leaves the router: its input buffer's flits go back to the partner as credits (R325). -/
def settleCredit (ch : Chan) (p : Packet) : Chan :=
  match ch.keg.owed.find? fun o => decide (o.packet = p) with
  | none => ch
  | some o =>
    setLink { ch with keg := { ch.keg with owed := ch.keg.owed.erase o } } o.port
      fun l => { l with vcGrant := l.vcGrant + fldAt (1 + pFlits p) (8 * o.cls) }

/-- The port of a packet's next hop. -/
def nextPort (r : Word) : Nat := dimPort (rDim r) (rMinus r (rDim r))

/-- The router discards a packet as it arrives: its KIND is reserved, or its next port has been unusable for KEG_DOWN_LIMIT,
which never discards while it is 0, but for the management packets that a MISWIRED port carries (R323, R328). -/
def discardedAt (ch : Chan) (p : Packet) : Bool :=
  let r := advanceDim 3 (pRoute p)
  decide (pKind p = 0) || decide (pKind p > 5)
    || (decide (rDim r ≠ 3) && (linkAt ch (nextPort r)).limited && decide (ch.keg.downLimit ≠ 0)
      && !(decide ((portAt ch (nextPort r)).state = .miswired) && decide (pKind p = 5)))

/-- A packet reaches the router, injected or received: it is discarded, at DIM 3 ejected, or waits for its next port (R323,
R324, R328). -/
def enterRouter (ch : Chan) (p : Packet) : Chan :=
  let r := advanceDim 3 (pRoute p)
  if discardedAt ch p then discardPacket ch (if pKind p = 0 ∨ pKind p > 5 then 0 else nextPort r)
  else if rDim r = 3 then eject ch (setRoute p r)
  else setLink ch (nextPort r) fun l => { l with tx := l.tx ++ [setRoute p r] }

/-- The channel sends a packet. The members of a pair compare it first, without its route, which starts at channel 2k
(R404). -/
def inject (ch : Chan) (p : Packet) : Chan :=
  if comparing ch then pushCopy ch (.packet (setRoute p 0)) else enterRouter ch p

/-- Answer a packet with a RESPONSE, routed back to its origin (R278, R324, R327). -/
def respond (ch : Chan) (p : Packet) (reason : Nat) : Chan :=
  inject ch { hdr := mkHeader ch.keg 4 0 false (pSrc p) (pTag p) 0 0 reason 0 0 0, flits := [] }

end Sys2Proof.Machine
end

