-- ==== Sys2Proof/Machine/KegBlock.lean ====
section
/-! DEFINITION. Keg blocks: the control bits, the frame header and its CRC, the flits of a frame, and the ports' places on
the module (R310, R317, R320). -/

namespace Sys2Proof.Machine

/-! ### Places (R310) -/

/-- The other end of an interior link: port 0 meets CHn−1, port 1 CHn+1, port 2 CHn−4 and port 3 CHn+4, each on the opposite
port. -/
def interiorPeer (c : Ch) (p : Nat) : Option (Ch × Nat) :=
  if p = 0 ∧ c.val % 4 > 0 then some (c - 1, 1)
  else if p = 1 ∧ c.val % 4 < 3 then some (c + 1, 0)
  else if p = 2 ∧ c.val / 4 > 0 then some (c - 4, 3)
  else if p = 3 ∧ c.val / 4 < 3 then some (c + 4, 2)
  else none

/-- The connector of an external port, 2 to 7 for J2 to J7, and its port number there. -/
def externalAt (c : Ch) (p : Nat) : Option (Nat × Nat) :=
  if (interiorPeer c p).isSome ∨ p ≥ 6 then none
  else some (p + 2, if p < 2 then c.val / 4 else if p < 4 then c.val % 4 else c.val)

/-! ### Control bits -/

/-- The kind of a block: 0 a frame, 1 idle, 2 and 3 reserved. -/
def frameKind (f : Frame) : Nat := f.control.toNat / 2 ^ 18

/-- The type of flit `i`, 1 to 9: 0 control, 1 edge, 2 VC0, 3 VC1. -/
def flitType (f : Frame) (i : Nat) : Nat := f.control.toNat / 4 ^ (i - 1) % 4

/-- Flit `i` of a frame. -/
def flitOf (f : Frame) (i : Nat) : BitVec 512 := f.flits.toList.getD i 0

/-! ### The header, flit 0 -/

/-- The fields of a frame header. -/
structure FrameHead where
  seq    : Half
  ackseq : Half
  nak    : Bool
  ecred  : BitVec 7
  sstart : BitVec 9
  sdepth : BitVec 9
  vcred  : Word
  cstate : BitVec 3
  deriving DecidableEq, Repr

/-- Cell `k` of flit 0. -/
def headCell (f : Frame) (k : Nat) : Word := (flitOf f 0).extractLsb' (32 * k) 32

/-- The header of a frame. -/
def headOf (f : Frame) : FrameHead where
  seq := (headCell f 0).extractLsb' 0 16
  ackseq := (headCell f 0).extractLsb' 16 16
  nak := bit (headCell f 1) 0
  ecred := (headCell f 1).extractLsb' 1 7
  sstart := (headCell f 1).extractLsb' 8 9
  sdepth := (headCell f 1).extractLsb' 17 9
  vcred := headCell f 2
  cstate := (headCell f 3).extractLsb' 0 3

/-- Flit 0 with its CRC cell 0. -/
def packHead (h : FrameHead) : BitVec 512 :=
  atCell 0 (BitVec.ofNat 32 (h.seq.toNat + h.ackseq.toNat * 2 ^ 16))
    ||| atCell 1 (BitVec.ofNat 32 (b2n h.nak + h.ecred.toNat * 2 + h.sstart.toNat * 2 ^ 8 + h.sdepth.toNat * 2 ^ 17))
    ||| atCell 2 h.vcred ||| atCell 3 (h.cstate.setWidth 32)

/-! ### The CRC -/

/-- Bytes 0 to 59 of flit 0 and all of flits 1 to 9. -/
def crcBytes (f : Frame) : List Byte :=
  (natBytes 64 (flitOf f 0).toNat).take 60 ++ (f.flits.toList.drop 1).flatMap fun x => natBytes 64 x.toNat

/-- The CRC cell matches. -/
def crcOk (f : Frame) : Bool := decide (headCell f 15 = crc32c (crcBytes f))

/-- A frame with its CRC cell written. -/
def sealFrame (f : Frame) : Frame :=
  { f with flits := f.flits.set 0 (((flitOf f 0) &&& ~~~(atCell 15 0xFFFFFFFF)) ||| atCell 15 (crc32c (crcBytes f))) }

/-- A frame with another header. -/
def withHead (f : Frame) (h : FrameHead) : Frame := sealFrame { f with flits := f.flits.set 0 (packHead h) }

/-- The flit that fills a frame: a control flit with no message. (DESIGN CHOICE, log 125) -/
def idleFlit : Flit := { typ := 0, data := 0 }

/-- A frame from its header and up to nine flits; control flits fill the rest. -/
def mkFrame (h : FrameHead) (fs : List Flit) : Frame :=
  withHead {
    control := BitVec.ofNat 20 ((List.range 9).foldl (fun acc i => acc + (fs.getD i idleFlit).typ.toNat * 4 ^ i) 0)
    decoded := true
    flits := Vector.ofFn fun i : Fin 10 => if i.val = 0 then 0 else (fs.getD (i.val - 1) idleFlit).data } h

/-- A frame without its edge flits, which become control flits with no message (R322). -/
def stripEdges (f : Frame) : Frame :=
  let edge := fun i => decide (flitType f i = 1)
  withHead { f with
    control := (List.range 9).foldl
      (fun c i => if edge (i + 1) then c &&& ~~~(BitVec.ofNat 20 (3 * 4 ^ i)) else c) f.control
    flits := Vector.ofFn fun i : Fin 10 => if i.val ≠ 0 ∧ edge i.val = true then 0 else f.flits[i] }
    { headOf f with sstart := 0, sdepth := 0 }

/-- A link whose frames carry no edge flits any more, and that has no edge flit to send (R322). -/
def dropEdges (l : Link) : Link :=
  { l with
    txEdges := [], edgeFlits := [], replay := l.replay.map stripEdges, unsent := l.unsent.map stripEdges
    wire := l.wire.map stripEdges }

/-! ### Timebase messages (R320, R331) -/

/-- A control flit arrives: it asks for this module's TIMEBASE, or answers with the partner's. -/
def controlFlit (x : BitVec 512) (l : Link) : Link :=
  if x = 0 then l
  else
    match Config.timebaseMsg x with
    | none => l
    | some none => { l with owe := true }
    | some (some t) => { l with heard := some t }

/-- The control flits that are due: a question, and an answer when this module has a TIMEBASE to give. -/
def dueFlits (tb : Option (BitVec 64)) (l : Link) : List Flit :=
  (if l.ask then [{ typ := 0, data := Config.timebaseFlit none }] else [])
    ++ (match tb with
      | some t => if l.owe then [{ typ := 0, data := Config.timebaseFlit (some t) }] else []
      | none => [])

end Sys2Proof.Machine
end

