-- ==== Sys2Proof/Machine/Grist.lean ====
section
/-! DEFINITION. Format descriptors, op words, the routine table, the words of the base image that the spec gives, and
the costs of the base routines (R66, R73, R82, R117, R120, R123, R143, R156, R160, R403, R444, R445, R447). -/

namespace Sys2Proof.Machine

/-! ### Format descriptors (GFD cells A and B) -/

def dKind (a : Word) : Nat := fld a 0 2
def dWidth (a : Word) : Nat := fld a 2 9
def dExpw (a : Word) : Nat := fld a 11 4
def dRound (a : Word) : Nat := fld a 15 3
def dSubn (a : Word) : Bool := bit a 18
def dSat (a : Word) : Bool := bit a 19
def dFbits (a : Word) : Nat := fld a 20 8

/-- The fraction width f = w − e − 1 of a floating descriptor. -/
def dFrac (a : Word) : Nat := dWidth a - dExpw a - 1

/-- The bias: BIAS where BIASSEL is 1, else 2^(EXPW − 1) − 1. -/
def dBias (a b : Word) : Nat := if bit b 15 then fld b 0 15 else 2 ^ (dExpw a - 1) - 1

/-- The descriptor holds a reserved value (R10, R117, conditions 1 to 6 in order). -/
def descBad (a b : Word) : Bool :=
  decide (dWidth a = 0 ∨ dWidth a > 256 ∨ dRound a ≥ 6 ∨ fld a 28 4 ≠ 0 ∨ fld b 16 16 ≠ 0)
    || (decide (dKind a = 2) && (decide (dExpw a < 2 ∨ dWidth a < dExpw a + 2 ∨ dFbits a ≠ 0) || dSat a))
    || (decide (dKind a = 2) && bit b 15 && decide (fld b 0 15 = 0 ∨ fld b 0 15 > 2 ^ dExpw a - 2))
    || (!bit b 15 && decide (fld b 0 15 ≠ 0))
    || (decide (dKind a ≠ 2) && (decide (dExpw a ≠ 0 ∨ fld b 0 15 ≠ 0) || dSubn a || bit b 15))
    || (decide (dKind a = 3) && decide (dFbits a ≥ dWidth a))
    || (decide (dKind a < 2) && decide (dFbits a ≠ 0))

/-- The floating format of a descriptor, with a PE's draw. -/
def descFmt (a b : Word) (draw : Nat) : FFmt :=
  { e := dExpw a, f := dFrac a, bias := dBias a b, flush := dSubn a, rm := dRound a, draw := draw }

/-- The descriptor is signed or signed fixed point. -/
def dSigned (a : Word) : Bool := decide (dKind a = 1 ∨ dKind a = 3)

/-! ### Op words -/

def opRoutine (q : Quad) : Nat := fld q 118 10
def opGfd (q : Quad) : Nat := fld q 114 4
def opPb (q : Quad) (n : Nat) : Nat := fld q (66 + 12 * n) 12
def opReserved (q : Quad) : Nat := fld q 39 27
def opDoneIrq (q : Quad) : Bool := bit q 38
def opRtag (q : Quad) : BitVec 6 := q.extractLsb' 32 6
def opScalar (q : Quad) : Word := q.extractLsb' 0 32

/-! ### Micro-words -/

def wSeq (w : Quad) : Nat := fld w 124 4
def wUaddr (w : Quad) : Nat := fld w 110 14
def wCond (w : Quad) : Nat := fld w 105 5
def wA (w : Quad) : Nat := fld w 91 14
def wB (w : Quad) : Nat := fld w 77 14
def wD (w : Quad) : Nat := fld w 63 14
def wFtab (w : Quad) : Nat := fld w 55 8
def wCtab (w : Quad) : Nat := fld w 47 8
def wBsrc (w : Quad) : Nat := fld w 43 4
def wWen (w : Quad) : Nat := fld w 40 3
def wLatch (w : Quad) : Nat := fld w 37 3
def wXshift (w : Quad) : Nat := fld w 33 4
def wLaut (w : Quad) : Nat := fld w 30 3
def wAinc (w : Quad) : Nat := fld w 24 6
def wLsel (w : Quad) : Nat := fld w 22 2
def wLsrc (w : Quad) : Nat := fld w 19 3
def wLsel2 (w : Quad) : Nat := fld w 17 2
def wLdec (w : Quad) : Bool := bit w 16
def wSys (w : Quad) : Bool := bit w 15
def wIdle (w : Quad) : Bool := bit w 14
def wExport (w : Quad) : Nat := fld w 10 3
def wKeep (w : Quad) : Bool := bit w 9

/-- FTAB or CTAB depends on B (R38). -/
def usesB (w : Quad) : Bool := dependsB (wFtab w) || dependsB (wCtab w)

/-- The word reads the A plane (R38). -/
def readsA (w : Quad) : Bool :=
  dependsA (wFtab w) || dependsA (wCtab w) || decide (wLatch w = 4 ∨ wLatch w = 6)

/-- The word reads the B plane (R38). -/
def readsB (w : Quad) : Bool := decide (wBsrc w = 0) && usesB w

/-- The word writes the D plane (R38). -/
def writesD (w : Quad) : Bool := decide (wWen w ≠ 0)

/-- The word reads the old D word (R35). -/
def readsD (w : Quad) : Bool := decide (wWen w ≥ 2)

/-- The word touches plane memory (R38). -/
def touchesPlanes (w : Quad) : Bool := readsA w || readsB w || writesD w

/-- The Hamming positions of the 120 data bits: 3 to 127 without the powers of two (R444). -/
def hamPositions : List Nat := (List.range 128).filter fun n => decide (n ≠ 0 ∧ n &&& (n - 1) ≠ 0)

/-- The ECC field over 120 data bits (R444). -/
def hamEcc (data : Nat) : Nat :=
  let pairs := hamPositions.zipIdx.filter fun p => decide (data / 2 ^ p.2 % 2 = 1)
  let syn := pairs.foldl (fun acc p => acc ^^^ p.1) 0
  let all := (pairs.length + popNat 7 syn) % 2
  syn + 128 * all

/-- The syndrome of a stored word, or of a stored routine table entry: the stored check bits c0 to c6 against the recomputed
ones (R444). -/
def hamSyndrome (entry : Bool) (q : Quad) : Nat :=
  let data := if entry then fld q 0 120 else fld q 8 120
  let ecc := if entry then fld q 120 8 else fld q 0 8
  (hamEcc data ^^^ ecc) % 128

/-- The bit of the stored word that a syndrome names under odd parity: c7 for 0, a check bit for a power of two, else the
data bit at that position (R444). -/
def hamBit (entry : Bool) (syn : Nat) : Nat :=
  let check := if entry then 120 else 0
  let data := if entry then 0 else 8
  if syn = 0 then check + 7
  else if syn &&& (syn - 1) = 0 then check + Nat.log2 syn
  else data + hamPositions.idxOf syn

/-- A read of a stored word (R444): `none` for an uncorrectable one; else the word that the sequencer uses, and whether it
was corrected. -/
def hamRead (entry : Bool) (q : Quad) : Option (Quad × Bool) :=
  let syn := hamSyndrome entry q
  if popNat 7 q.toNat % 2 = 1 then some (q ^^^ BitVec.ofNat 128 (2 ^ hamBit entry syn), true)
  else if syn = 0 then some (q, false)
  else none

/-- A micro-word from its fields, with its ECC (03, The micro-word). -/
def mkWord (seq uaddr cond a b d ftab ctab bsrc wen latch xshift laut ainc loopctl aux : Nat) : Quad :=
  let data := seq * 2 ^ 116 + uaddr * 2 ^ 102 + cond * 2 ^ 97 + a * 2 ^ 83 + b * 2 ^ 69 + d * 2 ^ 55 + ftab * 2 ^ 47
    + ctab * 2 ^ 39 + bsrc * 2 ^ 35 + wen * 2 ^ 32 + latch * 2 ^ 29 + xshift * 2 ^ 25 + laut * 2 ^ 22 + ainc * 2 ^ 16
    + loopctl * 2 ^ 8 + aux
  BitVec.ofNat 128 (data * 256 + hamEcc data)

/-- The fill word: SEQ HALT, every other field 0 (R447). -/
def haltWord : Quad := mkWord 13 0 0 0 0 0 0 0 0 0 0 0 0 0 0 0

/-- An END word whose LCTL is `u` and whose table keeps C (routines 96 and 101 to 105, R156). -/
def lctlWord (u : Nat) : Quad := mkWord 10 u 0 0 0 0 0 0xAA 0 0 0 0 5 0 0 0

/-- A word that goes to `u` and keeps C. -/
def jmpWord (u : Nat) : Quad := mkWord 1 u 0 0 0 0 0 0xAA 0 0 0 0 0 0 0 0

/-- A RET word that keeps C. -/
def retWord : Quad := mkWord 5 0 0 0 0 0 0 0xAA 0 0 0 0 0 0 0 0

/-- What a microstore map holds at an address, if it lists it. -/
def listedQuad : List (Nat × Quad) → Nat → Option Quad
  | [], _ => none
  | (k, v) :: t, a => if a = k then some v else listedQuad t a

/-- Word `k` of a base routine whose words the spec describes, with its ENTRY at `e`: routine 17 as listed (03, An 8-bit
add), and routines 96 to 98 and 101 to 105 as R156 describes them. (DESIGN CHOICE, log 28) -/
def routineWord (r e k : Nat) : Option Quad :=
  let setPos := 0x2000 + 2176
  match r, k with
  | 17, 0 => some (mkWord 7 0 0 0 0 0 0 0 0 0 0 0 0 0 0x08 0)
  | 17, 1 => some (mkWord 6 (e + 1) 0 0 0x1000 0x2000 0x96 0xE8 0 2 0 0 0 0x15 0 0)
  | 17, 2 => some (mkWord 10 0 0 0 0 0 0xAA 0xAA 0 0 5 0 0 0 0 0)
  | 96, 0 => some (lctlWord 0x0100)
  | 97, 0 => some (mkWord 7 setPos 0 0 0 0 0 0xAA 0 0 0 0 5 0 0x60 0)
  | 97, 1 => some (mkWord 7 0x0301 0 0 0 0 0 0xAA 0 0 0 0 5 0 0x08 0)
  | 97, 2 => some (mkWord 6 (e + 2) 0 0 0 0 0xC0 0xAA 11 0 0 0 3 0x10 0 0)
  | 97, 3 => some (mkWord 10 0 0 0 0 0 0 0xAA 0 0 0 0 0 0 0 0)
  | 98, 0 => some (mkWord 7 setPos 0 0 0 0 0 0xAA 0 0 0 0 5 0 0x60 0)
  | 98, 1 => some (mkWord 7 0x0301 0 0 0 0 0xFF 0xAA 0 0 5 0 5 0 0x38 0)
  | 98, 2 => some (mkWord 2 (e + 5) 11 0 0 0 0 0xAA 0 0 0 0 0 0 0 0)
  | 98, 3 => some (mkWord 6 (e + 3) 0 0 0 0 0xC0 0xAA 11 0 0 0 3 0x10 0 0)
  | 98, 4 => some (mkWord 10 0 0 0 0 0 0xC0 0xAA 11 0 0 0 4 0 0 0)
  | 98, 5 => some (mkWord 13 0 0 0 0 0 0 0xAA 0 0 0 0 0 0 0 0)
  | 101, 0 => some (lctlWord 0x0500)
  | 102, 0 => some (lctlWord 0x0600)
  | 103, 0 => some (lctlWord 0x0700)
  | 104, 0 => some (lctlWord 0x0800)
  | 105, 0 => some (lctlWord 0x0900)
  | _, _ => none

/-- The exported subroutines that every base revision holds, as R445 describes them: a first word at each exported address,
and a body in the addresses 0x2FF0 to 0x2FF9. (DESIGN CHOICE, log 28) -/
def exportWord (a : Nat) : Option Quad :=
  match a with
  | 0x2FE0 => some (jmpWord 0x2FF0)
  | 0x2FE1 => some (jmpWord 0x2FF2)
  | 0x2FE2 => some (jmpWord 0x2FF4)
  | 0x2FE3 => some (jmpWord 0x2FF6)
  | 0x2FE4 => some (jmpWord 0x2FF8)
  | 0x2FF0 => some (mkWord 6 0x2FF0 0 0 0x1000 0x2000 0x96 0xE8 0 2 0 0 0 0x15 0 0)
  | 0x2FF1 => some retWord
  | 0x2FF2 => some (mkWord 6 0x2FF2 0 0 0x1000 0x2000 0x69 0xB2 0 2 0 0 0 0x15 0 0)
  | 0x2FF3 => some retWord
  | 0x2FF4 => some (mkWord 6 0x2FF4 0 0 0 0x2000 0xF0 0xAA 0 2 0 0 0 0x11 0 0)
  | 0x2FF5 => some retWord
  | 0x2FF6 => some (mkWord 6 0x2FF6 0 0 0 0x2000 0 0xAA 0 2 0 0 0 0x01 0 0)
  | 0x2FF7 => some retWord
  | 0x2FF8 => some (mkWord 6 0x2FF8 0 0 0 0 0xC0 0xAA 11 0 0 0 3 0x10 0 0)
  | 0x2FF9 => some retWord
  | _ => none

/-- The micro-word at an address: what the loaded image holds, else the fill word (R447). -/
def ustoreAt (ch : Chan) (a : Nat) : Quad := (listedQuad ch.seq.ustore a).getD haltWord

/-! ### The routine table -/

def eEntry (e : Quad) : Nat := fld e 0 14
def eValid (e : Quad) : Bool := bit e 14
def eSys (e : Quad) : Bool := bit e 15
def eUsesGfd (e : Quad) : Bool := bit e 16
def eUse (e : Quad) (n : Nat) : Nat := fld e (24 + 24 * n) 2
def eMul (e : Quad) (n : Nat) : Nat := fld e (26 + 24 * n) 4
def eAdd (e : Quad) (n : Nat) : Nat := fld e (30 + 24 * n) 13

/-- A footprint subfield. -/
def footField (use mul add : Nat) : Nat := use + 4 * mul + 64 * add

/-- A VALID routine table entry, with its ECC. -/
def mkEntry (entry : Nat) (sys uses : Bool) (b0 b1 b2 : Nat) : Quad :=
  let data := entry + 2 ^ 14 + b2n sys * 2 ^ 15 + b2n uses * 2 ^ 16 + b0 * 2 ^ 24 + b1 * 2 ^ 48 + b2 * 2 ^ 72
  BitVec.ofNat 128 (data + hamEcc data * 2 ^ 120)

/-- The routine table entries of the base routines of R120 and R156: SYS, USES_GFD and the footprints, with ENTRY 0. -/
def baseEntry (r : Nat) : Option Quad :=
  let rd := footField 1 1 0
  let wr := footField 2 1 0
  if r ∈ [17, 18, 19, 20] then some (mkEntry 0 false true rd rd wr)
  else if r = 21 then some (mkEntry 0 false true rd rd (footField 2 2 0))
  else if r = 22 then some (mkEntry 0 false true rd rd (footField 3 2 0))
  else if r ∈ [48, 49, 50, 52, 64, 65, 66, 67] then some (mkEntry 0 true true rd rd wr)
  else if r = 51 then some (mkEntry 0 true true rd rd (footField 2 2 0))
  else if r = 68 then some (mkEntry 0 true true rd 0 wr)
  else if r = 69 then some (mkEntry 0 true true rd rd (footField 3 1 0))
  else if r = 70 then some (mkEntry 0 true true rd rd (footField 2 2 2))
  else if r = 71 then some (mkEntry 0 true true (footField 1 0 256) 0 wr)
  else if r = 80 ∨ r = 81 then some (mkEntry 0 true false 0 0 0)
  else if r = 82 then some (mkEntry 0 true false 0 0 (footField 2 0 6))
  else if r = 83 then some (mkEntry 0 true false 0 0 (footField 2 0 96))
  else if r = 84 then some (mkEntry 0 true false (footField 1 0 96) 0 0)
  else if r ∈ [96, 101, 102, 103, 104] then some (mkEntry 0 false false 0 0 0)
  else if r = 97 ∨ r = 98 then some (mkEntry 0 false true rd 0 0)
  else if r = 99 then some (mkEntry 0 true true rd 0 0)
  else if r = 100 then some (mkEntry 0 true true (footField 1 2 2) 0 0)
  else if r = 105 then some (mkEntry 0 false true 0 0 0)
  else none

/-- The routine table entry of a routine; one that no part supplies is all zero (R447). -/
def rtabAt (ch : Chan) (r : Nat) : Quad := (listedQuad ch.seq.rtab r).getD 0

/-- A routine table entry says of a routine what another says, wherever its words begin: bits 14 to 119. -/
def sameEntry (e f : Quad) : Bool := decide (e.extractLsb' 14 106 = f.extractLsb' 14 106)

/-- The routine is a base routine as the spec describes it: the loaded image holds such an entry. -/
def isBase (ch : Chan) (r : Nat) : Bool :=
  match listedQuad ch.seq.rtab r, baseEntry r with
  | some e, some f => sameEntry e f
  | _, _ => false

/-- The image in the microstore supplies no word at the ENTRY of the routine. -/
def noWords (ch : Chan) (r : Nat) : Bool := (listedQuad ch.seq.ustore (eEntry (rtabAt ch r))).isNone

/-- The spec describes the words of the base routine. -/
def hasWords (r : Nat) : Bool := (routineWord r 0 0).isSome

/-- The routine is a base routine without words in the image, and the words that the spec describes stand in for them.
(DESIGN CHOICE, log 28) -/
def standsIn (ch : Chan) (r : Nat) : Bool := isBase ch r && noWords ch r && hasWords r

/-- The routine is a base routine without words in the image, nor in the spec: it runs by what R120 and R156 say of it.
(DESIGN CHOICE, log 28) -/
def isBehav (ch : Chan) (r : Nat) : Bool := isBase ch r && noWords ch r && !hasWords r

/-- The word that an op of routine `r` finds at its µPC: what the image supplies; where it supplies none, a word of a base
routine or of an exported subroutine that stands in; else the fill word (R447). (DESIGN CHOICE, log 28) -/
def wordAt (ch : Chan) (r a : Nat) : Quad :=
  let e := eEntry (rtabAt ch r)
  match listedQuad ch.seq.ustore a with
  | some w => w
  | none =>
    ((if standsIn ch r && decide (e ≤ a) then routineWord r e (a - e) else none).or (exportWord a)).getD haltWord

/-- The extent of base `n` under a descriptor's WIDTH (R73). -/
def extent (e : Quad) (n width : Nat) : Nat := eMul e n * width + eAdd e n

/-! ### Costs of the base routines -/

/-- ⌈a ÷ b⌉. -/
def ceilDiv (a b : Nat) : Nat := (a + b - 1) / b

/-- ⌈log₂ s⌉ for s at least 1. -/
def ceilLog2 (s : Nat) : Nat := if s ≤ 1 then 0 else Nat.log2 (s - 1) + 1

/-- The mantissa product cost P(p) (05, Floating-point routines). -/
def prodCost (p : Nat) : Nat :=
  if p ≤ 32 then p * p + 3 * p
  else
    let h := (p + 1) / 2
    let l := p / 2
    (h * h + 3 * h) + (l * l + 3 * l) + ((h + 1) * (h + 1) + 3 * (h + 1)) + 4 * p + 20

/-- The number of scale values of LSUMF (99) or LSUMX (100) (R160). -/
def scaleCount (r e : Nat) : Nat := if r = 99 then 2 ^ e - 2 else 2 * (2 ^ e - 2) - 1

/-- The cost of LSUMF or LSUMX for the scale indexes present (R160). -/
def sumCost (r e p : Nat) (present : List Nat) : Nat :=
  let n := scaleCount r e
  let nb := if n ≤ 2 then 1 else Nat.log2 (n - 1) + 1
  let g := ceilDiv n 32
  let o := (present.map (· / 32)).eraseDups.length
  let d := present.eraseDups.length
  let q := if r = 99 then p else 2 * p
  (3 * nb + 60) + (if nb ≤ 5 then 0 else g * (nb + 14)) + (32 * o - d) * 25 + d * (max q 17 + 11)

/-- The words of a base routine, without the SR surcharges and outside GUARDED mode (R120, R143, R156, R160). -/
def plainCost (r : Nat) (a scalar : Word) (present : List Nat) : Nat :=
  let w := dWidth a
  let e := dExpw a
  let p := dFrac a + 1
  let sat := if dSat a then w else 0
  match r with
  | 17 => w + 2
  | 18 => w + 2
  | 19 => w + 2
  | 20 => w + 2
  | 21 => w * w + 3 * w
  | 22 => w * w + w
  | 48 => w + 6 + sat
  | 49 => w + 6 + sat
  | 50 => w * w + 3 * w + 4 + sat
  | 51 => if dSigned a then w * w + 6 * w + 12 else w * w + 4 * w + 8
  | 52 => w * w + 5 * w + 6
  | 64 => 12 * p + 2 * e - 14
  | 65 => 12 * p + 2 * e - 14
  | 66 => prodCost p + 6 * p + 2 * e - 14
  | 67 => (p + 2) * (p + 4) + 6 * p + 2 * e - 14
  | 68 => (p + 2) * (p + 3) + 6 * p + 2 * e - 14
  | 69 => prodCost p + 10 * p + 2 * e - 14
  | 70 => prodCost p + 2 * e + 10
  | 71 =>
    let s := fld scalar 0 12
    if fld scalar 16 2 = 2 then 2 * s + 3 * w + 10 else s * (ceilLog2 s + 2) + 3 * w + 10
  | 80 => 31
  | 81 => 7
  | 82 => 7
  | 83 => 97
  | 84 => 97
  | 97 => w + 3
  | 98 => w + 3
  | 99 => sumCost r e p present
  | 100 => sumCost r e p present
  | _ => 1

/-- The routines that compare stochastically under SR (R123). -/
def srRoutine (r : Nat) : Bool := decide (r = 52 ∨ 64 ≤ r ∧ r ≤ 69 ∨ r = 71)

/-- The words of a base routine: SR adds 32 words to the routines of R123, and GUARDED mode adds ⌈C ÷ 12⌉, where C
counts the draw sequence too (R123, R403). -/
def baseCost (gd : Bool) (r : Nat) (a scalar : Word) (uses : Bool) (present : List Nat) : Nat :=
  let sr := uses && decide (dRound a = 5)
  let c := plainCost r a scalar present + (if sr && srRoutine r then 32 else 0)
  if gd then c + ceilDiv (c + (if sr then 32 else 0)) 12 else c

/-- In GUARDED mode, word `j` of a base routine of `c` words without its verification words and `total` words with them
is a verification word: one after every 12 words, and those left over just before the last word (R403).
(DEDUCED, log 30) -/
def verifyWord (c total j : Nat) : Bool :=
  decide (j + 1 < total) && (decide (j % 13 = 12) || decide (j - j / 13 ≥ c - 1))

end Sys2Proof.Machine
end

