-- ==== Sys2Proof/Machine/Routines.lean ====
section
/-! DEFINITION. What each base routine computes in a PE and in the channel (R115 to R138, R143 to R146, R156 to R160). -/

namespace Sys2Proof.Machine

/-! ### What an op reads -/

/-- The footprint of base `n` of an op: USE, first plane and extent, from PBn as issued (R73, R79). -/
def footprint (ch : Chan) (q : Quad) (a : Word) (n : Nat) : Nat × Nat × Nat :=
  let e := rtabAt ch (opRoutine q)
  (eUse e n, opPb q n, extent e n (dWidth a))

/-- Consecutive planes. -/
def planeRun (base n : Nat) : List Nat := (List.range n).map (base + ·)

/-- The routines that OR flags into the flag planes, and FLAGSUM and FLAGGET, which read them (R145, R146). -/
def readsFlags (r : Nat) : Bool := decide (48 ≤ r ∧ r ≤ 71 ∨ r = 80 ∨ r = 82 ∨ r = 99)

/-- The planes of base `n` that a base routine run by its description reads: its footprint, or the SWIDTH planes of
routine 71's source (R143). (DESIGN CHOICE, log 111) -/
def operandPlanes (ch : Chan) (x : OpCtx) (n : Nat) : List Nat :=
  let f := footprint ch x.word x.descA n
  if f.1 = 1 ∨ f.1 = 3 then
    planeRun f.2.1 (if opRoutine x.word = 71 then min f.2.2 (fld (opScalar x.word) 0 12) else f.2.2)
  else []

/-- The system planes that such a routine reads beside its operands, each as an A read: the draws of R139, the flag planes,
and what SCRSAVE copies (R142). The scratch planes of R142 are written before they are read. (DESIGN CHOICE, log 111) -/
def systemReads (x : OpCtx) : List Nat :=
  let r := opRoutine x.word
  (if dRound x.descA = 5 ∧ srRoutine r = true then planeRun 4032 32 else [])
    ++ (if readsFlags r then planeRun 4088 6 else []) ++ (if r = 83 then planeRun 3968 96 else [])

/-- The planes that an op of such a routine reads: FFIELD and plane, operands first. -/
def behavReads (ch : Chan) (x : OpCtx) : List (Nat × Nat) :=
  ((List.range 3).flatMap fun n => (operandPlanes ch x n).map fun p => (n, p)) ++ (systemReads x).map fun p => (0, p)

/-- What an op works from (R4, R121). -/
def inputsOf (ch : Chan) (x : OpCtx) : OpInputs where
  word := x.word
  descA := x.descA
  descB := x.descB
  c := ch.arr.c
  m := ch.arr.m
  x := ch.arr.x
  t := ch.arr.t
  planes := (behavReads ch x).map fun p => planeOf ch p.2

/-! ### Integer results -/

/-- An operand as the integer of its KIND: two's complement for signed and signed fixed point. -/
def ival (a : Word) (x : Nat) : Int := if dSigned a then sval (dWidth a) x else (x : Int)

/-- The lowest value of the range of a KIND and WIDTH. -/
def rangeLo (a : Word) : Int := if dSigned a then -((2 ^ (dWidth a - 1) : Nat) : Int) else 0

/-- The highest value of the range. -/
def rangeHi (a : Word) : Int :=
  if dSigned a then ((2 ^ (dWidth a - 1) : Nat) : Int) - 1 else ((2 ^ dWidth a : Nat) : Int) - 1

/-- Deliver an exact integer in the range of the descriptor: OF outside it, and then the value modulo 2^W or the
nearest bound (R125). -/
def deliverInt (a : Word) (v : Int) : Nat × FFlags :=
  if rangeLo a ≤ v ∧ v ≤ rangeHi a then (uval (dWidth a) v, 0)
  else (uval (dWidth a) (if dSat a then clampInt (rangeLo a) (rangeHi a) v else v), fOF)

/-- Routine 51: the quotient in the low W bits and the remainder above it (R126). -/
def divPe (a : Word) (x y : Nat) : Nat × FFlags :=
  let w := dWidth a
  let n := ival a x
  let d := ival a y
  if d = 0 then ((2 ^ w - 1) + x * 2 ^ w, fDZ)
  else if dSigned a ∧ n = rangeLo a ∧ d = -1 then
    (uval w (if dSat a then rangeHi a else rangeLo a), fOF)
  else (uval w (n.tdiv d) + uval w (n.tmod d) * 2 ^ w, 0)

/-- Routine 52: the exact product rounded at bit FBITS, then the range rule (R127). -/
def fxmulPe (a : Word) (draw x y : Nat) : Nat × FFlags :=
  let v := ival a x * ival a y
  let k := dFbits a
  let r := fToFixed (dRound a) draw (decide (v < 0)) v.natAbs (-((2 * k : Nat) : Int)) k
  let o := deliverInt a r.1
  (o.1, o.2 ||| (if r.2 then fNX else 0))

/-! ### Exact products (R136) -/

/-- The planes of an FMULX product: the magnitude, the exponent and the sign. (DESIGN CHOICE, log 116) -/
def packProduct (e p m : Nat) (ex : Int) (s : Bool) : Nat :=
  m + uval (2 * e + 1) ex * 2 ^ (2 * p) + b2n s * 2 ^ (2 * p + 2 * e + 1)

/-- The exponent of a product that is an infinity or a NaN, −2^(2e). -/
def specialExp (e : Nat) : Int := -((2 ^ (2 * e) : Nat) : Int)

/-- Routine 70. -/
def fmulxPe (q : FFmt) (x y : Nat) : Nat × FFlags :=
  let a := (fRead q x).1
  let b := (fRead q y).1
  let bd := (fRead q x).2 ||| (fRead q y).2
  let p := q.f + 1
  let nan (nv : Bool) : Nat × FFlags := (packProduct q.e p 1 (specialExp q.e) false, (if nv then fNV else 0) ||| bd)
  let inf (s : Bool) : Nat × FFlags := (packProduct q.e p 0 (specialExp q.e) s, bd)
  if isSnan a || isSnan b then nan true
  else
    match a, b with
    | .nan _, _ => nan false
    | _, .nan _ => nan false
    | .inf sa, .inf sb => inf (sa != sb)
    | .inf sa, .fin sb m _ => if m = 0 then nan true else inf (sa != sb)
    | .fin sa m _, .inf sb => if m = 0 then nan true else inf (sa != sb)
    | .fin sa ma ea, .fin sb mb eb =>
      if ma * mb = 0 then (packProduct q.e p 0 0 (sa != sb), bd)
      else (packProduct q.e p (ma * mb) (ea + eb) (sa != sb), bd)

/-! ### Conversions (R143, R144) -/

def sWidth (sc : Word) : Nat := fld sc 0 12
def sExpw (sc : Word) : Nat := fld sc 12 4
def sKind (sc : Word) : Nat := fld sc 16 2
def sFbits (sc : Word) : Nat := fld sc 18 8

/-- The source format breaks a condition of R117, or a reserved SCALAR bit is 1 (R143). -/
def cvtBad (sc : Word) : Bool :=
  decide (fld sc 26 6 ≠ 0 ∨ sWidth sc = 0 ∨ sWidth sc > 256)
    || (decide (sKind sc = 2) && decide (sExpw sc < 2 ∨ sWidth sc < sExpw sc + 2 ∨ sFbits sc ≠ 0))
    || (decide (sKind sc ≠ 2) && decide (sExpw sc ≠ 0))
    || (decide (sKind sc = 3) && decide (sFbits sc ≥ sWidth sc))
    || (decide (sKind sc < 2) && decide (sFbits sc ≠ 0))

/-- The floating source format, which always uses its default bias (R143). -/
def srcFmt (sc : Word) (flush : Bool) : FFmt :=
  { e := sExpw sc, f := sWidth sc - sExpw sc - 1, bias := 2 ^ (sExpw sc - 1) - 1, flush := flush, rm := 0, draw := 0 }

/-- Routine 71. `x` holds the low SWIDTH bits of the source. -/
def cvtPe (a b sc : Word) (draw x : Nat) : Nat × FFlags :=
  let dst := descFmt a b draw
  if sKind sc = 2 then
    if dKind a = 2 then fConvert (srcFmt sc false) dst x
    else
      let r := fToRange (dRound a) draw (fRead (srcFmt sc false) x).1 (dFbits a) (rangeLo a) (rangeHi a)
      (uval (dWidth a) r.1, r.2)
  else
    let v : Int := if sKind sc = 0 then (x : Int) else sval (sWidth sc) x
    if dKind a = 2 then fFromInt dst v (sFbits sc)
    else
      let r := fToFixed (dRound a) draw (decide (v < 0)) v.natAbs (-(sFbits sc : Int)) (dFbits a)
      let o := deliverInt a r.1
      (o.1, o.2 ||| (if r.2 then fNX else 0))

/-! ### One PE -/

/-- What a base routine computes in one PE from its operands: `x`, `y` at PB0 and PB1, `d` the old value at PB2, the
PE's T at the start of the op, and its draw (R120). -/
def basePe (r : Nat) (a b sc : Word) (x y d : Nat) (t : Bool) (draw : Nat) : Nat × FFlags :=
  let w := dWidth a
  let q := descFmt a b draw
  match r with
  | 17 => ((x + y) % 2 ^ w, 0)
  | 18 => ((x + (2 ^ w - 1 - y) + 1) % 2 ^ w, 0)
  | 19 => ((x + y + b2n t) % 2 ^ w, 0)
  | 20 => ((x + (2 ^ w - 1 - y) + b2n t) % 2 ^ w, 0)
  | 21 => (uval (2 * w) (ival a x * ival a y), 0)
  | 22 => (uval (2 * w) ((d : Int) + ival a x * ival a y), 0)
  | 48 => deliverInt a (ival a x + ival a y)
  | 49 => deliverInt a (ival a x - ival a y)
  | 50 => deliverInt a (ival a x * ival a y)
  | 51 => divPe a x y
  | 52 => fxmulPe a draw x y
  | 64 => fAdd q x y
  | 65 => fSub q x y
  | 66 => fMul q x y
  | 67 => fDiv q x y
  | 68 => fSqrt q x
  | 69 => fFma q x y d
  | 70 => fmulxPe q x y
  | _ => cvtPe a b sc draw x

/-- The carry out of the top bit that routines 17 to 20 leave in C and T (R121). -/
def carryPe (r w x y : Nat) (t : Bool) : Bool :=
  match r with
  | 17 => decide (x + y ≥ 2 ^ w)
  | 18 => decide (x + (2 ^ w - 1 - y) + 1 ≥ 2 ^ w)
  | 19 => decide (x + y + b2n t ≥ 2 ^ w)
  | _ => decide (x + (2 ^ w - 1 - y) + b2n t ≥ 2 ^ w)

/-- How many planes a base routine writes from PB2, given the WIDTH. -/
def destWidth (r w : Nat) : Nat :=
  if r = 21 ∨ r = 22 ∨ r = 51 then 2 * w else if r = 70 then 2 * w + 2 else w

/-- The planes of PB0 that a routine uses as its first operand. -/
def srcWidth (r w : Nat) (sc : Word) : Nat := if r = 71 then sWidth sc else w

/-! ### Sums (R156 to R159) -/

/-- What one PE gives to LSUMF or LSUMX. -/
inductive SumTerm where
  | none
  | special (f : BitVec 4)
  | term (neg : Bool) (m : Nat) (scale : Int)
  | unstated
  deriving DecidableEq, Repr

/-- The smallest scale of LSUMF, 1 − B − f; twice it for LSUMX. -/
def scaleMin (r : Nat) (a b : Word) : Int :=
  let s : Int := 1 - (dBias a b : Int) - (dFrac a : Int)
  if r = 99 then s else 2 * s

/-- LSUMF's term of a value, with the flags it raises (R157, R158). -/
def lsumfPe (a b : Word) (x : Nat) : SumTerm × FFlags :=
  let r := fRead (descFmt a b 0) x
  match r.1 with
  | .nan true => (.special 2, fNV)
  | .nan false => (.special 1, 0)
  | .inf s => (.special (if s then 8 else 4), 0)
  | .fin s m ex => (if m = 0 then .none else .term s m ex, r.2)

/-- LSUMX's term of a product (R136, R157, R158). Planes that hold no product of the format are unstated.
(DESIGN CHOICE, log 34) -/
def lsumxPe (a b : Word) (x : Nat) : SumTerm :=
  let e := dExpw a
  let p := dFrac a + 1
  let m := x % 2 ^ (2 * p)
  let ex := sval (2 * e + 1) (x / 2 ^ (2 * p))
  let s := decide (x / 2 ^ (2 * p + 2 * e + 1) % 2 = 1)
  if ex = specialExp e then
    if m = 0 then .special (if s then 8 else 4) else if m = 1 then .special 1 else .unstated
  else if m = 0 then .none
  else if scaleMin 100 a b ≤ ex ∧ ex < scaleMin 100 a b + scaleCount 100 e then .term s m ex
  else .unstated

/-- The term of a PE. -/
def sumPe (r : Nat) (a b : Word) (x : Nat) : SumTerm × FFlags :=
  if r = 99 then lsumfPe a b x else (lsumxPe a b x, 0)

/-- LSUMF and LSUMX accept the descriptor (R159). -/
def sumAccepts (r : Nat) (a b : Word) : Bool :=
  let k : Int := if r = 99 then 1 else 2
  let top : Int := ((2 ^ dExpw a : Nat) : Int) - 1 - (dBias a b : Int)
  decide (dKind a = 2) && decide (scaleMin r a b ≥ -2176) && decide (k * top ≤ 2111)

/-! ### The routine as a whole -/

/-- The word that is a HALT word: after the guard word for a descriptor of the wrong kind, and the tenth word of
routine 71 for a bad source format (R122, R143, R159). -/
def haltAt (r : Nat) (a b sc : Word) : Option Nat :=
  if (48 ≤ r ∧ r ≤ 51) ∧ dKind a = 2 then some 1
  else if r = 52 ∧ dSigned a = false then some 1
  else if (64 ≤ r ∧ r ≤ 70) ∧ dKind a ≠ 2 then some 1
  else if (r = 99 ∨ r = 100) ∧ sumAccepts r a b = false then some 1
  else if r = 71 ∧ cvtBad sc = true then some 9
  else none

/-- PE `i` takes part: its M is 1. -/
def active (ch : Chan) (i : Nat) : Bool := ch.arr.m.getLsbD i

/-- The number of PEs of a channel. -/
def peCount : Nat := 1048576

/-- A field of PE `i` in the channel's planes. -/
def peField (ch : Chan) (base i w : Nat) : Nat := planeField (planeOf ch) base i w

/-- A PE's draw, from planes 4,032 to 4,063 (R139). -/
def peDraw (ch : Chan) (i : Nat) : Nat := peField ch 4032 i 32

/-- The scale indexes that LSUMF or LSUMX finds (R157, R160). -/
def scalesPresent (ch : Chan) (r pb0 : Nat) (a b : Word) : List Nat :=
  let w := if r = 99 then dWidth a else 2 * dWidth a + 2
  ((List.range peCount).filterMap fun i =>
    if active ch i then
      match (sumPe r a b (peField ch pb0 i w)).1 with
      | .term _ _ scale => some (scale - scaleMin r a b).toNat
      | _ => none
    else none).eraseDups

/-- Write planes from a base in the PEs with M = 1, and OR flags into the flag planes (R121, R145). -/
def writeResults (ch : Chan) (base width : Nat) (f : Nat → Nat × FFlags) : Chan :=
  let m := ch.arr.m
  let ch1 := (List.range width).foldl (fun acc k =>
    putMasked acc (base + k) (sheetOf fun i => decide ((f i).1 / 2 ^ k % 2 = 1)) m) ch
  (List.range 6).foldl (fun acc k =>
    let new := planeOf acc (4088 + k) ||| sheetOf fun i => (f i).2.getLsbD k
    if new &&& m = planeOf acc (4088 + k) &&& m then acc else putMasked acc (4088 + k) new m) ch1

/-- Copy planes in every PE. -/
def copyPlanes (ch : Chan) (src dst n : Nat) : Chan :=
  (List.range n).foldl (fun acc k => putPlane acc (dst + k) (planeOf ch (src + k))) ch

/-- FLAGCLR (R146). -/
def flagClear (ch : Chan) (sc : Word) : Chan :=
  (List.range 6).foldl (fun acc k =>
    if bit sc k then
      (if bit sc 6 then putMasked acc (4088 + k) 0 acc.arr.m else putPlane acc (4088 + k) 0)
    else acc) ch

/-- C, X and T after a base routine other than 17 to 20: values that depend on the op's inputs and that a program must not
rely on (R121). -/
def freeLatches (i : OpInputs) (ch : Chan) : Chan :=
  { ch with arr := { ch.arr with
    c := Config.leftSheet i 0, x := Config.leftSheet i 1, t := Config.leftSheet i 2 } }

/-- C and T after routines 17 to 20 (R121). -/
def carryLatches (ch : Chan) (r pb0 pb1 w : Nat) : Chan :=
  let s := sheetOf fun i => carryPe r w (peField ch pb0 i w) (peField ch pb1 i w) (ch.arr.t.getLsbD i)
  { ch with arr := { ch.arr with c := s, t := s } }

/-- The planes of one value that LSUMF or LSUMX reads. -/
def sumWidth (r : Nat) (a : Word) : Nat := if r = 99 then dWidth a else 2 * dWidth a + 2

/-- What PE `i` gives to LSUMF or LSUMX. -/
def sumOfPe (ch : Chan) (x : OpCtx) (i : Nat) : SumTerm × FFlags :=
  let r := opRoutine x.word
  sumPe r x.descA x.descB (peField ch (opPb x.word 0) i (sumWidth r x.descA))

/-- The PEs that take part in a sum: M is 1. -/
def sumPes (ch : Chan) : List Nat := (List.range peCount).filter (active ch)

/-- The status bits that the data of a sum set, as SFLAG codes (R158). -/
def sumStatus (ch : Chan) (x : OpCtx) : List (BitVec 4) :=
  [1#4, 2#4, 4#4, 8#4].filter fun f => (sumPes ch).any fun i => decide ((sumOfPe ch x i).1 = .special f)

/-- The planes that LSUMF and LSUMX work from, which no op run in a preemption changes (R103, R121). -/
def sumInputs (ch : Chan) (x : OpCtx) : OpInputs :=
  { inputsOf ch x with
    c := 0, x := 0, t := 0, planes := (operandPlanes ch x 0).map (planeOf ch) }

/-- What a PE gives to the count of significand plane `k` for scale index `u` (R157). -/
def termBit (x : OpCtx) (u k : Nat) : SumTerm → Int
  | .term neg m scale =>
    if (scale - scaleMin (opRoutine x.word) x.descA x.descB).toNat = u ∧ m / 2 ^ k % 2 = 1 then
      if neg then -1 else 1
    else 0
  | _ => 0

/-- The count of significand plane `k` over the PEs of scale index `u`, by SCNT_D with T set from the sign plane (R157). -/
def sumCount (ch : Chan) (x : OpCtx) (u k : Nat) : Int :=
  (sumPes ch).foldl (fun acc i => acc + termBit x u k (sumOfPe ch x i).1) 0

/-- A PE's planes hold no product of the format, so the spec states no count of theirs. (DESIGN CHOICE, log 34) -/
def sumUnstated (ch : Chan) (x : OpCtx) : Bool := (sumPes ch).any fun i => decide ((sumOfPe ch x i).1 = .unstated)

/-! ### The search of LSUMF and LSUMX (R160) -/

/-- A word of the search: of the setup, of the mark of a group, or of a scale value, each with its number there; or the END
word. -/
inductive SearchWord where
  | setup (n : Nat)
  | group (g n : Nat)
  | value (u n : Nat)
  | last
  deriving DecidableEq, Repr

/-- The parameters of a search: nb, the number of groups, and the planes streamed per scale value. -/
structure Search where
  nb : Nat
  g  : Nat
  q  : Nat
  deriving DecidableEq, Repr

/-- The parameters for a routine and a descriptor (R160). -/
def searchOf (r : Nat) (a : Word) : Search :=
  let n := scaleCount r (dExpw a)
  let p := dFrac a + 1
  { nb := if n ≤ 2 then 1 else Nat.log2 (n - 1) + 1, g := ceilDiv n 32, q := if r = 99 then p else 2 * p }

/-- The words of the setup, the guard word first. -/
def setupLen (k : Search) : Nat := 3 * k.nb + 59

/-- The words of a scale value: an abandoned stream, or all the planes. -/
def valueLen (k : Search) (present : List Nat) (u : Nat) : Nat := if u ∈ present then max k.q 17 + 11 else 25

/-- Word `n` of a run of scale values. -/
def valueWord (k : Search) (present : List Nat) : List Nat → Nat → SearchWord ⊕ Nat
  | [], n => .inr n
  | u :: us, n =>
    if n < valueLen k present u then .inl (.value u n) else valueWord k present us (n - valueLen k present u)

/-- Word `n` of the groups, from the one with the number `g` down: the mark, where there is more than one group, then the 32
values of an occupied group from the highest down. -/
def groupWord (k : Search) (present : List Nat) : Nat → Nat → SearchWord
  | 0, _ => .last
  | g + 1, n =>
    let head := if k.nb ≤ 5 then 0 else k.nb + 14
    if n < head then .group g n
    else
      match valueWord k present
        (if (present.map (· / 32)).contains g then (List.range 32).map fun i => 32 * g + (31 - i) else []) (n - head) with
      | .inl w => w
      | .inr n => groupWord k present g n

/-- Word `n` of the search. -/
def searchWord (k : Search) (present : List Nat) (n : Nat) : SearchWord :=
  if n < setupLen k then .setup n else groupWord k present k.g (n - setupLen k)

/-- The last word of LSUMF and LSUMX: it sets the weight state (06, The search). LSUMF's flags are in the flag planes by then
(R158). -/
def sumResults (ch : Chan) (x : OpCtx) : Chan :=
  let ch := writeResults ch 0 0 fun k => (0, (sumOfPe ch x k).2)
  { ch with lau := { ch.lau with lpos := 2176, lstep := 0 } }

/-- FLAGSUM's last word writes the global OR of each flag plane over all PEs to ARRAY_FLAGS (R146). -/
def flagSum (ch : Chan) : Chan :=
  { ch with fmt := { ch.fmt with flags := BitVec.ofNat 6 ((List.range 6).foldl (fun acc k =>
    acc + b2n (decide (planeOf ch (4088 + k) ≠ 0)) * 2 ^ k) 0) } }

/-- The routines that use planes 3,968 to 4,031 as working storage (R142). -/
def writesScratch (r : Nat) : Bool := decide (r = 52 ∨ 64 ≤ r ∧ r ≤ 71 ∨ r = 99 ∨ r = 100)

/-- The working storage after a routine that uses it: the spec does not say what is left there, so it is open (R4, R142). -/
def leaveScratch (i : OpInputs) (r : Nat) (ch : Chan) : Chan :=
  if writesScratch r then (planeRun 3968 64).foldl (fun acc p => putPlane acc p (Config.leftSheet i p)) ch else ch

/-- The effect of a base routine whose words the spec does not give, when its last word executes. Routines 17 to 20 leave
X as it was. (DESIGN CHOICE, log 111) -/
def applyBase (ch : Chan) (x : OpCtx) : Chan :=
  let q := x.word
  let a := x.descA
  let b := x.descB
  let i := inputsOf ch x
  let r := opRoutine q
  let w := dWidth a
  let sc := opScalar q
  let pb0 := opPb q 0
  let pb1 := opPb q 1
  let pb2 := opPb q 2
  if r = 80 then freeLatches i (flagSum ch)
  else if r = 81 then freeLatches i (flagClear ch sc)
  else if r = 82 then freeLatches i (copyPlanes ch 4088 pb2 6)
  else if r = 83 then freeLatches i (copyPlanes ch 3968 pb2 96)
  else if r = 84 then freeLatches i (copyPlanes ch pb0 3968 96)
  else if r = 99 ∨ r = 100 then leaveScratch i r (freeLatches i (sumResults ch x))
  else
    let res := fun k =>
      basePe r a b sc (peField ch pb0 k (srcWidth r w sc)) (peField ch pb1 k w) (peField ch pb2 k (destWidth r w))
        (ch.arr.t.getLsbD k) (peDraw ch k)
    let ch' := writeResults ch pb2 (destWidth r w) res
    if r ≤ 20 then
      let t := carryLatches ch r pb0 pb1 w
      { ch' with arr := { ch'.arr with c := t.arr.c, t := t.arr.t } }
    else leaveScratch i r (freeLatches i ch')

/-! ### A base routine stopped part-way and discarded -/

/-- A plane that the op may have written in part: what it holds where the op writes, and the code words that it has
rewritten, are open. (DESIGN CHOICE, log 29) -/
def putPart (i : OpInputs) (n : Nat) (en : Sheet) (value : Sheet → Sheet → Sheet) (ch : Chan) (p : Nat) : Chan :=
  let ch' := setPlane ch p ((value (planeOf ch p) (Config.partSheet i n p) &&& en) ||| (planeOf ch p &&& ~~~en))
  let ch' := { ch' with arr := { ch'.arr with
    marks := ch'.arr.marks.filter fun k =>
      decide (k.plane ≠ p) || !Config.partWritten i n p k.word || (k.ue && !wholeWord en k.word) } }
  notePlane (noteVerify ch' p) p (fun _ => true) .same

/-- What a base routine whose words the spec does not give leaves when it is stopped part-way and discarded: the planes
it was writing, in the PEs with M = 1 (or in every PE where R146 and R142 say so), are open; flags may have been raised
(R120, R121). (DESIGN CHOICE, log 29) -/
def discardBase (ch : Chan) (x : OpCtx) : Chan :=
  let i := inputsOf ch x
  let n := x.ucount.toNat
  let r := opRoutine x.word
  let pb2 := opPb x.word 2
  let sc := opScalar x.word
  let all : Sheet := BitVec.allOnes 1048576
  let new := fun (_ v : Sheet) => v
  let raise := fun (ch : Chan) => (planeRun 4088 6).foldl (putPart i n i.m fun old v => old ||| v) ch
  let scratch := fun (ch : Chan) => if writesScratch r then (planeRun 3968 64).foldl (putPart i n all new) ch else ch
  if r = 81 then
    ((List.range 6).filter (bit sc ·)).foldl
      (fun acc k => putPart i n (if bit sc 6 then i.m else all) (fun old v => old &&& v) acc (4088 + k)) ch
  else if r = 82 then (planeRun pb2 6).foldl (putPart i n all new) ch
  else if r = 83 then (planeRun pb2 96).foldl (putPart i n all new) ch
  else if r = 84 then (planeRun 3968 96).foldl (putPart i n all new) ch
  else if r = 80 then ch
  else if r = 99 ∨ r = 100 then scratch (if r = 99 then raise ch else ch)
  else
    let ch := (planeRun pb2 (destWidth r (dWidth x.descA))).foldl (putPart i n i.m new) ch
    scratch (if r ≥ 48 then raise ch else ch)

/-- An op of a base routine run by its description has executed words that may have written planes: not its guard word
alone, and it is not one that a HALT word stops before any plane is written (R122). -/
def mayHaveWritten (ch : Chan) (x : OpCtx) : Bool :=
  let r := opRoutine x.word
  isBehav ch r && decide (x.ucount.toNat > b2n (eSys (rtabAt ch r)))
    && (haltAt r x.descA x.descB (opScalar x.word)).isNone

end Sys2Proof.Machine
end

