-- ==== Sys2Proof/Machine/SeqOps.lean ====
section
/-! DEFINITION. What the sequencers do around an op: the save block, the capture edge, microstore fetches, ISSUE_STOP, the
issue checks and GO (R66, R67, R83, R101 to R104, R408). -/

namespace Sys2Proof.Machine

/-! ### The written part of the footprint -/

/-- ARRAY_HOLDn for an op: its written range at base `n`, or no range (R103). -/
def holdOf (ch : Chan) (q : Quad) (a : Word) (n : Nat) : BitVec 26 :=
  let f := footprint ch q a n
  if f.1 ≥ 2 then BitVec.ofNat 26 (f.2.1 + f.2.2 * 8192) else 0

/-- The holds that a trap of an op sets (R99, T6). -/
def holdsOf (ch : Chan) (q : Quad) (a : Word) : Vector (BitVec 26) 4 := Vector.ofFn fun i => holdOf ch q a i.val

/-! ### The save block (R101) -/

/-- The sequencer state that the save block of an op shows: its own, or what the spec leaves open for a base routine
whose words it does not give. (DESIGN CHOICE, log 29) -/
def shownUpc (ch : Chan) (x : OpCtx) : BitVec 14 :=
  if isBehav ch (opRoutine x.word) then Config.baseUpc (opRoutine x.word) x.ucount.toNat else x.upc

/-- A counter as the save block shows it. -/
def shownUlc (ch : Chan) (x : OpCtx) (i : Fin 4) : BitVec 12 :=
  if isBehav ch (opRoutine x.word) ∧ x.ucount ≠ 0 then Config.baseUlc (opRoutine x.word) x.ucount.toNat i.val
  else x.ulc[i]

/-- A plane base as the save block shows it. -/
def shownPb (ch : Chan) (x : OpCtx) (i : Fin 4) : BitVec 13 :=
  if isBehav ch (opRoutine x.word) ∧ x.ucount ≠ 0 then
    BitVec.ofNat 13 (opPb x.word i.val) + Config.basePb (opRoutine x.word) x.ucount.toNat i.val
  else x.pb[i]

/-- The micro-call stack as the save block shows it, newest return address first: CSDEPTH is at most 8. -/
def shownStack (ch : Chan) (x : OpCtx) : List (BitVec 14) :=
  if isBehav ch (opRoutine x.word) ∧ x.ucount ≠ 0 then
    (Config.baseStack (opRoutine x.word) x.ucount.toNat).take 8
  else x.stack

/-- Two fields of a cell, at bits 0 and 16. -/
def twoFields (lo hi : Nat) : Word := BitVec.ofNat 32 (lo + hi * 65536)

/-- Entry `k` of a micro-call stack, oldest entry first. -/
def stackEntry (stack : List (BitVec 14)) (k : Nat) : Nat := (stack.reverse.getD k 0).toNat

/-- Save cell 0. -/
def saveCell0 (upc : BitVec 14) (depth cause sub : Nat) (noResume : Bool) (ff : Nat) : Word :=
  BitVec.ofNat 32 (upc.toNat + depth * 2 ^ 14 + cause * 2 ^ 18 + sub * 2 ^ 26 + b2n noResume * 2 ^ 28 + ff * 2 ^ 29)

/-- The causes after which an op cannot be resumed: PLANE_RANGE and UHALT (R96). -/
def notResumable (cause : Nat) : Bool := decide (cause = 3 ∨ cause = 8)

/-- Save cell 19: the ages and requests. -/
def saveAges (x : OpCtx) : Word :=
  BitVec.ofNat 32 (x.gorAge + b2n x.gorVal * 32 + b2n x.gorReq * 64 + x.cntAge * 128 + b2n x.cntReq * 8192)

/-- The 20 cells of the save block of an op (R101). Of a base routine that runs by its description, µPC, CSDEPTH, the call
stack, the counters and the plane bases are open. (DESIGN CHOICE, log 29) -/
def saveBlock (ch : Chan) (x : OpCtx) (cause sub ff : Nat) : Vector Word 20 :=
  let st := shownStack ch x
  #v[saveCell0 (shownUpc ch x) st.length cause sub (notResumable cause) ff,
    twoFields (stackEntry st 0) (stackEntry st 1), twoFields (stackEntry st 2) (stackEntry st 3),
    twoFields (stackEntry st 4) (stackEntry st 5), twoFields (stackEntry st 6) (stackEntry st 7),
    twoFields (shownUlc ch x 0).toNat (shownUlc ch x 1).toNat, twoFields (shownUlc ch x 2).toNat (shownUlc ch x 3).toNat,
    twoFields (shownPb ch x 0).toNat (shownPb ch x 1).toNat, twoFields (shownPb ch x 2).toNat (shownPb ch x 3).toNat,
    x.word.extractLsb' 0 32, x.word.extractLsb' 32 32, x.word.extractLsb' 64 32, x.word.extractLsb' 96 32,
    x.step.extractLsb' 0 32, x.step.extractLsb' 32 32, x.ucount.extractLsb' 0 32, x.ucount.extractLsb' 32 32,
    x.descA, x.descB, saveAges x]

/-- The sequencer state that a save block holds (R102, R108). The seed and draw counter of the op at issue are not in
the block: the module keeps them. -/
def loadBlock (s : Vector Word 20) (seed drawN : BitVec 64) : OpCtx :=
  let ent := fun k => BitVec.ofNat 14 (fld (s.toList.getD (1 + k / 2) 0) (16 * (k % 2)) 14)
  { word := s[12] ++ s[11] ++ s[10] ++ s[9]
    step := s[14] ++ s[13]
    ucount := s[16] ++ s[15]
    upc := s[0].setWidth 14
    stack := ((List.range (fld s[0] 14 4)).map ent).reverse
    ulc := #v[s[5].setWidth 12, s[5].extractLsb' 16 12, s[6].setWidth 12, s[6].extractLsb' 16 12]
    pb := #v[s[7].setWidth 13, s[7].extractLsb' 16 13, s[8].setWidth 13, s[8].extractLsb' 16 13]
    descA := s[17]
    descB := s[18]
    gorAge := fld s[19] 0 5
    gorVal := bit s[19] 5
    gorReq := bit s[19] 6
    cntAge := fld s[19] 7 6
    cntReq := bit s[19] 13
    seed := seed
    drawN := drawN }

/-! ### ISSUE_STOP and YIELD -/

/-- Set ISSUE_STOP with a cause, the routine that it concerns, and the base of issue check 3. -/
def setStop (ch : Chan) (cause routine base : Nat) : Chan :=
  { ch with seq := { ch.seq with
    stop := true, issueCause := BitVec.ofNat 20 (cause + routine * 256 + base * 262144) } }

/-- The status of a YIELD becomes known (R106): YSTAT holds it, and the YIELD of the controller, if it asked, finds it
when it next executes or its wait ends. YPEND stays set until then, so that the request takes effect once (R200). -/
def answerYield (ch : Chan) (ctlAsked : Bool) (status : BitVec 2) : Chan :=
  { ch with
    trap := { ch.trap with ystat := status, yreq := none }
    ev := { ch.ev with yieldAns := if ctlAsked then some status else ch.ev.yieldAns } }

/-- The micro-cycles n, n + 1 and n + 2 of a YIELD that have passed, when it reaches the array, without a word of the op: in
a restore at least the first, and in a draw sequence as many as fall in it; which of them the request meets is open (R448).
(DESIGN CHOICE, log 27) -/
def yieldCycles (ch : Chan) : Nat :=
  let n := (Config.freeWord ch.free).toNat
  match ch.seq.cur with
  | none => 0
  | some x =>
    if ch.trap.state = 3 then 1 + n % 3
    else if x.ucount = 0 ∧ dRound x.descA = 5 then n % 4
    else 0

/-- A YIELD request reaches the array (R106, R448): who asked. -/
def askYield (ch : Chan) (ctl mgmt : Bool) : Chan :=
  { ch with
    free := ch.free + 1
    trap := { ch.trap with yreq := some { ctl := ctl, mgmt := mgmt, cycles := yieldCycles ch } } }

/-! ### Idle micro-cycles (R62) -/

/-- A micro-cycle of the running op has passed, which leaves plane memory idle or not. -/
def setIdle (idle : Bool) (ch : Chan) : Chan :=
  { ch with seq := { ch.seq with planeIdle := idle, idleUsed := 0 } }

/-- A micro-cycle idle for plane memory is at hand in a logical tun: no op runs, or the last micro-cycle was idle and the
tun has not used it. -/
def tunIdle (ch : Chan) (t : Nat) : Bool :=
  ch.seq.cur.isNone || (ch.seq.planeIdle && !ch.seq.idleUsed.getLsbD t)

/-- A tun uses the idle micro-cycle, which plane memory that wakes serves when it is awake (R244, R246). -/
def useIdle (t : Nat) (ch : Chan) : Chan :=
  let ch := { ch with mem := { ch.mem with waking := false } }
  if ch.seq.cur.isNone then ch
  else { ch with seq := { ch.seq with idleUsed := ch.seq.idleUsed ||| BitVec.ofNat 64 (2 ^ t) } }

/-! ### The capture edge (R408) -/

/-- The state of the op that CAP_STEP names is saved, and the op has executed fewer words than CAP_UCOUNT. -/
def captureSaved (ch : Chan) : Bool :=
  let x := loadBlock ch.trap.save ch.trap.saveSeed ch.trap.saveDraw
  decide (ch.trap.state = 1 ∨ ch.trap.state = 2) && decide (x.step = ch.err.capStep)
    && decide (x.ucount.toNat < ch.err.capU.toNat)

/-- The op that CAP_STEP names has executed CAP_UCOUNT words, or has ended. -/
def captureReached (ch : Chan) : Bool :=
  let past := decide (ch.seq.stepcount.toNat > ch.err.capStep.toNat) && !captureSaved ch
  match ch.seq.cur with
  | some x => if x.step = ch.err.capStep then decide (x.ucount.toNat ≥ ch.err.capU.toNat) else past
  | none => past

/-- A capture is armed and its edge has come (R408). -/
def captureDue (ch : Chan) : Bool := decide (ch.err.capState = 1#2) && captureReached ch

/-- The flip-flops of a channel as they stand. -/
def shadowOf (ch : Chan) : Shadow where
  ctl := ch.ctl
  ev := ch.ev
  mem := { ch.mem with imem := [], dmem := [] }
  arr := { ch.arr with planes := [] }
  seq := ch.seq
  trap := ch.trap
  fmt := ch.fmt
  lau := ch.lau
  rack := ch.rack
  hbm := { ch.hbm with bytes := [] }
  keg := ch.keg
  mill := ch.mill
  host := ch.host
  pwr := ch.pwr
  err := ch.err

/-- The copy that a capture takes at its edge: CAP_STAT reads TAKEN, or FROZEN under capture-and-freeze, which leaves the
tap transmitter in electrical idle (R308, R408, R409). -/
def takeCapture (ch : Chan) : Chan :=
  { ch with
    shadow := some (shadowOf ch), err := { ch.err with capState := if ch.err.capFreeze then 3 else 2 }
    mill := if ch.err.capFreeze then { ch.mill with tx := none } else ch.mill }

/-! ### Microstore fetches (R83, R444) -/

/-- The word at a microstore address, 16,384 + r for routine table entry r. -/
def ustoreWord (ch : Chan) (addr : Nat) : Quad := if addr ≥ 16384 then rtabAt ch (addr - 16384) else ustoreAt ch addr

/-- What a sequencer's read of its damaged copy gives (R83, R444): the flips that stay after the correction is written
back, whether it corrected a single-bit error, and whether it presents another word or none. -/
def readMark (ch : Chan) (m : UstoreMark) : Quad × Bool × Bool :=
  let w := ustoreWord ch m.addr
  match hamRead (decide (m.addr ≥ 16384)) (w ^^^ m.flips) with
  | none => (m.flips, false, true)
  | some (q, fixed) => (q ^^^ w, fixed, decide (q ≠ w))

/-- One sequencer reads its damaged copy: a correction is written back, counted and reported, CE 0x08 (R83). -/
def correctMark (ch : Chan) (m : UstoreMark) : Chan :=
  let r := readMark ch m
  if r.2.1 then
    report { ch with seq := { ch.seq with
      umarks := (if r.1 = 0 then [] else [{ m with flips := r.1 }]) ++ ch.seq.umarks.erase m
      ustoreCe := satInc ch.seq.ustoreCe 1 } } .ce 0x08 (BitVec.ofNat 8 m.tun) (BitVec.ofNat 32 m.addr)
  else ch

/-- Every sequencer fetches its copy of a word: single-bit errors are corrected, and a sequencer that is left with another
word, or with an uncorrectable one, presents a signature that differs (R83). -/
def fetchUstore (ch : Chan) (addr : Nat) : Chan :=
  (ch.seq.umarks.filter fun m => decide (m.addr = addr) && inService ch m.tun).foldl (fun acc m =>
    let acc' := correctMark acc m
    if (readMark acc m).2.2 then
      { acc' with seq := { acc'.seq with
        badSig := acc'.seq.badSig ||| BitVec.ofNat 64 (2 ^ logicalTun acc m.tun) } }
    else acc') ch

/-! ### Issue checks (R66) -/

/-- The live descriptor cells that an op names. -/
def gfdA (ch : Chan) (q : Quad) : Word := ch.fmt.gfdA.toList.getD (opGfd q) 0

/-- As `gfdA`, cell B. -/
def gfdB (ch : Chan) (q : Quad) : Word := ch.fmt.gfdB.toList.getD (opGfd q) 0

/-- The descriptor that an op reads at issue; 0 when its routine uses none. -/
def issueA (ch : Chan) (q : Quad) : Word := if eUsesGfd (rtabAt ch (opRoutine q)) then gfdA ch q else 0

/-- As `issueA`, cell B. -/
def issueB (ch : Chan) (q : Quad) : Word := if eUsesGfd (rtabAt ch (opRoutine q)) then gfdB ch q else 0

/-- Check 1: reserved bits, a routine that is not VALID, or an owner routine with no owner set loaded. -/
def badOpword (ch : Chan) (q : Quad) : Bool :=
  decide (opReserved q ≠ 0)
    || (decide (opRoutine q ≠ 0) && !eValid (rtabAt ch (opRoutine q)))
    || (decide (opRoutine q ≥ 768) && !bit ch.seq.ustoreId 24)

/-- Check 2: the descriptor that the routine uses holds a reserved value. -/
def badFormat (ch : Chan) (q : Quad) : Bool :=
  eUsesGfd (rtabAt ch (opRoutine q)) && descBad (gfdA ch q) (gfdB ch q)

/-- Check 3 for base `n`: its range passes 4,096, or reaches plane 3,968 in a routine that is not a system routine. -/
def badRange (ch : Chan) (q : Quad) (n : Nat) : Bool :=
  let f := footprint ch q (issueA ch q) n
  decide (opRoutine q ≠ 0 ∧ f.1 ≠ 0) &&
    (decide (f.2.1 + f.2.2 > 4096)
      || (!eSys (rtabAt ch (opRoutine q)) && decide (f.2.2 ≠ 0 ∧ f.2.1 + f.2.2 > 3968)))

/-- Two ranges of planes meet. -/
def rangesMeet (a n b m : Nat) : Bool := decide (n ≠ 0 ∧ m ≠ 0 ∧ a < b + m ∧ b < a + n)

/-- Check 4: the footprint meets a held range (R104). -/
def badHold (ch : Chan) (q : Quad) : Bool :=
  decide (opRoutine q ≠ 0) && (List.range 4).any fun n =>
    let f := footprint ch q (issueA ch q) n
    decide (f.1 ≠ 0) && ch.trap.holds.toList.any fun h => rangesMeet f.2.1 f.2.2 (fld h 0 13) (fld h 13 13)

/-- The first failing check: its cause and, for check 3, the lowest base that fails it (R66). -/
def issueFault (ch : Chan) (q : Quad) : Option (Nat × Nat) :=
  if badOpword ch q then some (1, 0)
  else if badFormat ch q then some (2, 0)
  else
    match (List.range 4).find? (badRange ch q) with
    | some n => some (3, n)
    | none => if badHold ch q then some (0x0B, 0) else none

/-! ### The head op -/

/-- The controller waits in a RESUME whose restore has not begun (R108). -/
def resumeWaits (ch : Chan) : Bool :=
  decide (ch.trap.state = 2) &&
    (match ch.ev.wait with
    | some w => decide (w.kind = .resume)
    | none => false)

/-- The array may take an op: the channel runs, no op runs, issue is not stopped, no save, drain or restore is under
way, no RESUME waits for its restore, whose op runs before any queued op (R108), and no capture edge comes first. -/
def mayIssue (ch : Chan) : Bool :=
  chanRunning ch && ch.seq.cur.isNone && !ch.seq.stop && ch.trap.drain.isNone && decide (ch.trap.state ≠ 1)
    && decide (ch.trap.state ≠ 3) && !resumeWaits ch && !captureDue ch

/-- A refused op stays at the head; ISSUE_STOP, the cause and the controller trap are as the table of R66 gives. -/
def refuseOp (ch : Chan) (q : Quad) (cause base : Nat) : Chan :=
  let ch := setStop ch cause (opRoutine q) base
  if cause = 0x0B then { ch with ev := { ch.ev with hold := true } } else raiseArray ch (BitVec.ofNat 8 cause)

/-- The sequencers read the routine table entry of an op; ADMIT has none (R72). -/
def fetchRoutine (ch : Chan) (q : Quad) : Chan :=
  if opRoutine q = 0 then ch else fetchUstore ch (16384 + opRoutine q)

/-- The checks of R66 on the head op: it is refused where it fails one, and stays ready to start where it passes. -/
def checkHead (ch : Chan) : Chan :=
  if mayIssue ch = false then ch
  else
    match ch.seq.queue with
    | [] => ch
    | q :: _ =>
      let ch := fetchRoutine ch q
      match issueFault ch q with
      | some (cause, base) => refuseOp ch q cause base
      | none => ch

/-- GO: ISSUE_STOP clears, and the checks of R66 are repeated on the head op (R67). -/
def qctlGo (ch : Chan) : Chan := checkHead { ch with seq := { ch.seq with stop := false } }

end Sys2Proof.Machine
end

