-- ==== Sys2Proof/Machine/TrapSave.lean ====
section
/-! DEFINITION. The end of an op, mid-op stops with the trap-save sequence and the drain, ABANDON and the restore
(R96 to R110). -/

namespace Sys2Proof.Machine

/-! ### The end of an op -/

/-- The op that runs has executed its END or ENDTRAP word. A resumed op releases its hold, and its end clears ISSUE_STOP
and acts as GO (R103, R108); DONE_IRQ raises line 0 (R197); ENDTRAP with a true COND stops issue with cause UEND (R74);
and a YIELD that found no boundary in the op is answered IDLE with a stop of its own (R106, R448), whose cause then
stands in ARRAY_ISSUE_CAUSE, over UEND too. (DESIGN CHOICE, log 111) -/
def endOp (ch : Chan) (x : OpCtx) (uend : Bool) : Chan :=
  let r := opRoutine x.word
  let resumed := ch.seq.resumed
  let ch := { ch with seq := { ch.seq with cur := none, waiting := false } }
  let ch :=
    if resumed then
      { ch with
        seq := { ch.seq with resumed := false, stop := false }
        trap := { ch.trap with holds := Vector.replicate 4 0, state := if ch.trap.state = 3 then 0 else ch.trap.state } }
    else ch
  let ch := if opDoneIrq x.word then raiseLine ch 0 else ch
  let ch := if uend then raiseArray (setStop ch 7 r 0) 7 else ch
  match ch.trap.yreq with
  | some y => answerYield (setStop ch 9 r 0) y.ctl 2
  | none => if resumed && !uend then qctlGo ch else ch

/-! ### A mid-op stop (R96 to R101, R110) -/

/-- Stop an op at the boundary before the word at its µPC. While STATE is SAVED, the op is discarded and nothing is
saved (R110); otherwise the latches go to planes 4,064 to 4,067, the save block, the holds and ISSUE_STOP are written,
and STATE is SAVING until the drain ends (R99, R100). A YIELD that waits, whether or not its own boundary has come, is
answered by the same save, which leaves MGMT set where it was set (DESIGN CHOICE, log 111); a capture whose edge is this
boundary takes its copy (R97). -/
def midStop (ch : Chan) (x : OpCtx) (cause sub ff : Nat) : Chan :=
  let r := opRoutine x.word
  let here := { ch with seq := { ch.seq with cur := some x } }
  let ch := if captureDue here then takeCapture here else ch
  if ch.trap.state = 2 then
    let ch := if mayHaveWritten ch x then discardBase ch x else ch
    let ch := setStop ch cause r 0
    { ch with
      seq := { ch.seq with cur := none, waiting := false }
      trap := { ch.trap with
        cause := BitVec.ofNat 8 cause, sub := BitVec.ofNat 2 sub, ffield := BitVec.ofNat 2 ff, nosave := true
        drain := some {
          cause := BitVec.ofNat 8 cause, sub := BitVec.ofNat 2 sub, ffield := BitVec.ofNat 2 ff, quiet := false
          nosave := true, yield := false } } }
  else
    let mgmt := match ch.trap.yreq with
      | some y => y.mgmt
      | none => false
    let save := saveBlock ch x cause sub ff
    let holds := holdsOf ch x.word x.descA
    let ch := putPlane (putPlane (putPlane (putPlane ch 4064 ch.arr.c) 4065 ch.arr.m) 4066 ch.arr.x) 4067 ch.arr.t
    let ch := setStop ch cause r 0
    { ch with
      seq := { ch.seq with cur := none, waiting := false, resumed := false }
      trap := { ch.trap with
        state := 1, cause := BitVec.ofNat 8 cause, sub := BitVec.ofNat 2 sub, ffield := BitVec.ofNat 2 ff
        mgmt := ch.trap.mgmt || mgmt
        save := save, saveSeed := x.seed, saveDraw := x.drawN, holds := holds
        drain := some {
          cause := BitVec.ofNat 8 cause, sub := BitVec.ofNat 2 sub, ffield := BitVec.ofNat 2 ff
          quiet := decide (cause = 9) && !mgmt, nosave := false, yield := ch.trap.yreq.isSome } } }

/-- The drain of R100 has ended: every lauter request made before the boundary has reached the root, and no signature
comparison of a word before it is still to find a difference. -/
def drained (ch : Chan) : Bool :=
  decide (ch.lau.roots = []) && decide (ch.lau.gors = []) && decide (ch.seq.badSig = 0)

/-- The end of the drain: STATE becomes SAVED unless nothing was saved, ARRAY is raised except for a YIELD that only
the controller asked for, and the YIELD that the save met is answered OK; where nothing was saved and no op runs any
more, it is answered IDLE (R100, R106). -/
def finishDrain (ch : Chan) (d : Drain) : Chan :=
  let ch := { ch with trap := { ch.trap with state := if d.nosave then ch.trap.state else 2, drain := none } }
  let ch := if d.quiet then ch else raiseArray ch d.cause
  match ch.trap.yreq with
  | some y => if d.yield then answerYield ch y.ctl (if d.nosave then 2 else 0) else ch
  | none => ch

/-! ### ABANDON and RESUME (R108, R109) -/

/-- Load the latches that the restore reads reach before a failing one: C and T, then X, then M. -/
def restoreLatches (ch : Chan) (upTo : Nat) : Chan :=
  let ch := if upTo ≥ 1 then { ch with arr := { ch.arr with c := planeOf ch 4064, t := planeOf ch 4067 } } else ch
  let ch := if upTo ≥ 2 then { ch with arr := { ch.arr with x := planeOf ch 4066 } } else ch
  if upTo ≥ 3 then { ch with arr := { ch.arr with m := planeOf ch 4065 } } else ch

/-- The state saved is discarded with its hold, and STATE becomes NONE (R109). -/
def abandon (ch : Chan) : Chan :=
  let x := loadBlock ch.trap.save ch.trap.saveSeed ch.trap.saveDraw
  let live := ch.arr
  let ch := if mayHaveWritten ch x then discardBase (restoreLatches ch 3) x else ch
  { ch with
    arr := { ch.arr with c := live.c, m := live.m, x := live.x, t := live.t }
    trap := { ch.trap with state := 0, holds := Vector.replicate 4 0 } }

/-- The first restore read that finds an uncorrectable word, in the order of the sequence: 4,064 (A) and 4,067 (B),
then 4,066, then 4,065. -/
def restoreFault (ch : Chan) : Option (Nat × Nat) :=
  [(4064, 0), (4067, 1), (4066, 0), (4065, 0)].find? fun p => decide (planeUes ch p.1 ≠ [])

/-- The restore sequence: the latches and the sequencer state return, and STATE reads RESUMING until the word at UPC is
presented. A failed read returns to SAVED with NORESUME, cause PLANE_ECC and UCC 0x02 (R108). Plane memory in retention
wakes first. (DESIGN CHOICE, log 111) -/
def startRestore (ch : Chan) : Chan :=
  let ch := { ch with mem := { ch.mem with planeRet := false, waking := false } }
  match restoreFault ch with
  | some (p, ff) =>
    let read := if p = 4066 then [4064, 4067, 4066] else if p = 4065 then [4064, 4067, 4066, 4065] else [4064, 4067]
    let ch := restoreLatches (read.foldl readCes ch) (if p = 4066 then 1 else if p = 4065 then 2 else 0)
    let ch := reportPlaneUe ch p ((planeUes ch p).headD 0)
    let c0 := (ch.trap.save[0] &&& 0x8003FFFF#32) ||| BitVec.ofNat 32 (4 * 2 ^ 18 + 2 ^ 28 + ff * 2 ^ 29)
    raiseArray { ch with trap := { ch.trap with
      state := 2, cause := 4, sub := 0, ffield := BitVec.ofNat 2 ff, save := ch.trap.save.set 0 c0 } } 4
  | none =>
    let ch := restoreLatches ([4064, 4067, 4066, 4065].foldl readCes ch) 3
    { ch with
      seq := { ch.seq with
        cur := some (loadBlock ch.trap.save ch.trap.saveSeed ch.trap.saveDraw), resumed := true, waiting := false }
      trap := { ch.trap with state := 3 } }

end Sys2Proof.Machine
end

