-- ==== Sys2Proof/Machine/Micro.lean ====
section
/-! DEFINITION. The micro-word: its checks, its data path, its lauter request, its next address and its waits (R32 to
R46, R74 to R88, R153, R154), and the words of base routines that run by their description. -/

namespace Sys2Proof.Machine

/-! ### Conditions -/

/-- The routine of the op uses a descriptor. -/
def usesDesc (ch : Chan) (x : OpCtx) : Bool := eUsesGfd (rtabAt ch (opRoutine x.word))

/-- COND (R76, R77), as it stands at the start of the micro-cycle. -/
def condTrue (ch : Chan) (x : OpCtx) (c : Nat) : Bool :=
  let sc := opScalar x.word
  let ud := usesDesc ch x
  match c with
  | 0 => true
  | 1 => decide (x.gorAge ≥ 18)
  | 2 => decide (x.gorAge ≥ 18) && x.gorVal
  | 3 => decide (x.cntAge ≥ 36)
  | 4 => edgeReady ch 0
  | 5 => edgeReady ch 1
  | 6 => edgeReady ch 2
  | 7 => edgeReady ch 3
  | 8 => edgeReady ch 0 && edgeReady ch 1 && edgeReady ch 2 && edgeReady ch 3
  | 9 => creditReady ch 0 && creditReady ch 1 && creditReady ch 2 && creditReady ch 3
  | 10 => ch.arr.staging.any fun s => !s.out
  | 11 => decide (x.ulc[0] = 0)
  | 12 => decide (x.ulc[1] = 0)
  | 13 => decide (x.ulc[2] = 0)
  | 14 => decide (x.ulc[3] = 0)
  | 15 => bit sc (x.ulc[0].toNat % 32)
  | 16 => decide (sc = 0)
  | 17 => bit sc 31
  | 18 => ud && dSigned x.descA
  | 19 => ud && decide (dKind x.descA = 2)
  | 20 => ud && dSat x.descA
  | 21 => ud && dSubn x.descA
  | 22 => ud && bit x.descA 15
  | 23 => ud && bit x.descA 16
  | 24 => ud && bit x.descA 17
  | _ => guarded ch

/-! ### Plane fields (R79) -/

/-- The effective plane of a 14-bit field: PBn + offset as a 13-bit sum. -/
def effPlane (x : OpCtx) (f : Nat) : Nat := ((x.pb.toList.getD (f / 4096 % 4) 0).toNat + f % 4096) % 8192

/-- The subcause of PLANE_RANGE for a used field: 1 RANGE, 2 FOOTPRINT. `write` says that the access is D's. -/
def fieldFault (ch : Chan) (x : OpCtx) (w : Quad) (f : Nat) (write : Bool) : Option Nat :=
  let p := effPlane x f
  if p ≥ 4096 ∨ (wSys w = false ∧ p ≥ 3968) then some 1
  else if p ≥ 3968 then none
  else
    let fp := footprint ch x.word x.descA (f / 4096 % 4)
    let permitted := if write then decide (fp.1 ≥ 2) else decide (fp.1 = 1 ∨ fp.1 = 3)
    if permitted && decide (fp.2.1 ≤ p ∧ p < fp.2.1 + fp.2.2) then none else some 2

/-- The first used field that faults, in the order A, B, D: its subcause and FFIELD. -/
def rangeFault (ch : Chan) (x : OpCtx) (w : Quad) : Option (Nat × Nat) :=
  match if readsA w then fieldFault ch x w (wA w) false else none with
  | some s => some (s, 0)
  | none =>
    match if readsB w then fieldFault ch x w (wB w) false else none with
    | some s => some (s, 1)
    | none => (if writesD w then fieldFault ch x w (wD w) true else none).map fun s => (s, 2)

/-! ### The data path -/

/-- The PEs that write D (R35). -/
def enabled (ch : Chan) (wen : Nat) : Sheet :=
  match wen with
  | 0 => 0#1048576
  | 1 => BitVec.allOnes 1048576
  | 2 => ch.arr.m
  | 3 => ~~~ch.arr.m
  | 4 => ch.arr.m &&& ch.arr.c
  | 5 => ch.arr.m &&& ~~~ch.arr.c
  | _ => ch.arr.m &&& ch.arr.t

/-- Operand B (R34). -/
def operandB (ch : Chan) (x : OpCtx) (w : Quad) : Sheet :=
  match wBsrc w with
  | 0 => if readsB w then planeOf ch (effPlane x (wB w)) else 0#1048576
  | 9 => ch.arr.t
  | 10 => ch.arr.x
  | 11 => ch.arr.m
  | 12 => 0#1048576
  | 13 => BitVec.allOnes 1048576
  | 14 => sheetConst (bit (opScalar x.word) (wB w % 32))
  | k => hop ch k

/-- Operand A. -/
def operandA (ch : Chan) (x : OpCtx) (w : Quad) : Sheet :=
  if readsA w then planeOf ch (effPlane x (wA w)) else 0#1048576

/-- D, as step 3 of R32 computes it. -/
def valueD (ch : Chan) (x : OpCtx) (w : Quad) : Sheet :=
  applyTable (wFtab w) (operandA ch x w) (operandB ch x w) ch.arr.c

/-- The new X: LATCH XD or XA, or the exchange (R36, R39). -/
def newX (ch : Chan) (x : OpCtx) (w : Quad) (d : Sheet) : Sheet :=
  if wXshift w ≠ 0 then hop ch (wXshift w)
  else if wLatch w = 3 then d
  else if wLatch w = 4 then operandA ch x w
  else ch.arr.x

/-- The latches and the D plane after the word (R32, R35, R36). -/
def dataPath (ch : Chan) (x : OpCtx) (w : Quad) : Chan :=
  let a := operandA ch x w
  let d := valueD ch x w
  let c' := applyTable (wCtab w) a (operandB ch x w) ch.arr.c
  let m' := if wLatch w = 1 then d else if wLatch w = 2 then ch.arr.m &&& d else ch.arr.m
  let t' := if wLatch w = 5 then d else if wLatch w = 6 then a else ch.arr.t
  let x' := newX ch x w d
  let en := enabled ch (wWen w)
  let p := effPlane x (wD w)
  let ch1 := if wWen w = 0 then ch else putPlane ch p ((d &&& en) ||| (planeOf ch p &&& ~~~en))
  { ch1 with arr := { ch1.arr with c := c', m := m', x := x', t := t' } }

/-- The edges that the word reads across in KEG mode (R45). -/
def edgesRead (ch : Chan) (w : Quad) : List Nat :=
  let k1 := if 1 ≤ wXshift w ∧ wXshift w ≤ 8 then [hopDir (wXshift w)] else []
  let k2 := if (1 ≤ wBsrc w ∧ wBsrc w ≤ 8) ∧ usesB w = true then [hopDir (wBsrc w)] else []
  ((k1 ++ k2).eraseDups).filter fun d => decide (edgeMode ch d = 1)

/-- The edges that the word exports to in KEG mode (R43). -/
def edgesSent (ch : Chan) (w : Quad) : List Nat :=
  (exportEdges (wExport w)).filter fun d => decide (edgeMode ch d = 1)

/-- The word reads a line that a one-line head slot does not hold (R44). -/
def readsShort (ch : Chan) (w : Quad) : Bool :=
  (decide (1 ≤ wXshift w ∧ wXshift w ≤ 8) && hopShort ch (wXshift w))
    || (decide (1 ≤ wBsrc w ∧ wBsrc w ≤ 8) && usesB w && hopShort ch (wBsrc w))

/-- SHORT, exports of the new X, and the retirement of the head slots read, unless KEEP (R43 to R45). -/
def edgeEffects (before ch : Chan) (w : Quad) : Chan :=
  let ch :=
    if readsShort before w then raiseLine { ch with arr := { ch.arr with short := true } } 1 else ch
  let ch := (edgesSent before w).foldl (exportOne ch.arr.x) ch
  if wKeep w then ch else (edgesRead before w).foldl retireOne ch

/-! ### Plane ECC of a word (R55 to R57) -/

/-- The uncorrectable words of old D that fault: those not wholly enabled (R57). -/
def oldDFault (ch : Chan) (x : OpCtx) (w : Quad) : List Nat :=
  (planeUes ch (effPlane x (wD w))).filter fun k => !wholeWord (enabled ch (wWen w)) k

/-- The first uncorrectable read in the order A, B, D: the field, the plane and a code word. -/
def eccFault (ch : Chan) (x : OpCtx) (w : Quad) : Option (Nat × Nat × Nat) :=
  let pa := effPlane x (wA w)
  let pb := effPlane x (wB w)
  let pd := effPlane x (wD w)
  if readsA w ∧ planeUes ch pa ≠ [] then some (0, pa, (planeUes ch pa).headD 0)
  else if readsB w ∧ planeUes ch pb ≠ [] then some (1, pb, (planeUes ch pb).headD 0)
  else if readsD w ∧ oldDFault ch x w ≠ [] then some (2, pd, (oldDFault ch x w).headD 0)
  else none

/-- The planes that the word reads. -/
def wordPlanes (x : OpCtx) (w : Quad) : List Nat :=
  ((if readsA w then [effPlane x (wA w)] else []) ++ (if readsB w then [effPlane x (wB w)] else [])
    ++ (if readsD w then [effPlane x (wD w)] else [])).eraseDups

/-- The corrected errors that the word's reads find, and the wholly enabled uncorrectable words of old D, which count
as corrected ones (R55, R57). -/
def wordCes (ch : Chan) (x : OpCtx) (w : Quad) : Chan :=
  let pd := effPlane x (wD w)
  let ues := if readsD w then planeUes ch pd else []
  ues.foldl (fun ch k => countPlaneCe ch pd k) ((wordPlanes x w).foldl readCes ch)

/-- The stop of a word that reads an uncorrectable code word: the single-bit errors of its reads are found all the same
(R55, R56). -/
def eccStop (ch : Chan) (x : OpCtx) (reads : List Nat) (f : Nat × Nat × Nat) : Chan :=
  midStop (reportPlaneUe (reads.foldl readCes ch) f.2.1 f.2.2) x 4 0 f.1

/-! ### Lauter requests (R81, R151, R153, R154) -/

/-- LSTEP as an integer. -/
def lstepVal (s : BitVec 2) : Int := if s = 0 then 1 else if s = 1 then -1 else 0

/-- Move LPOS by an offset, modulo 8,192. -/
def movePos (l : Lau) (d : Int) : Lau := { l with lpos := BitVec.ofInt 13 ((l.lpos.toNat : Int) + d) }

/-- A count bound to LPOS; one bound to 4,352 or above adds 0 (R153). -/
def countAddend (l : Lau) (n : Int) : Acc :=
  if l.lpos.toNat ≥ 4352 then 0 else BitVec.ofInt 4352 (n * ((2 ^ l.lpos.toNat : Nat) : Int))

/-- Append a root effect of an op. -/
def rootOf (l : Lau) (x : OpCtx) (op : RootOp) : Lau :=
  { l with roots := l.roots ++ [{ tag := opRtag x.word, op := op, age := 0 }] }

/-- LPOS and LSTEP that LOAD takes from cell 138 of the snapshot (R154). -/
def loadPos (l : Lau) : Lau :=
  let c := l.snap.extractLsb' (32 * 138) 32
  { l with lpos := c.extractLsb' 0 13, lstep := if c.extractLsb' 13 2 = 3#2 then l.lstep else c.extractLsb' 13 2 }

/-- A lauter control operation encoded in UADDR (R154). -/
def lctl (ch : Chan) (x : OpCtx) (u : Nat) : Chan :=
  let l := ch.lau
  let l' :=
    if u ≥ 8192 then { l with lpos := BitVec.ofNat 13 u, lstep := 0 }
    else if u ≥ 4096 then movePos l (sval 12 u)
    else
      match u / 256 % 16 with
      | 1 => rootOf { l with lpos := 2176, lstep := 0 } x .clear
      | 2 => if u % 4 = 3 then l else { l with lstep := BitVec.ofNat 2 u }
      | 3 => movePos l (sval 12 (x.ulc.toList.getD (u % 4) 0).toNat)
      | 4 => rootOf l x (.sflag (BitVec.ofNat 4 u))
      | 5 => rootOf l x (.snap l.lpos l.lstep)
      | 6 => rootOf (loadPos l) x .load
      | 7 => rootOf l x .merge
      | 8 => rootOf l x (.xsend l.lpos l.lstep)
      | 9 => rootOf l x (.round (usesDesc ch x) x.descA x.descB x.seed x.drawN)
      | _ => l
  { ch with lau := l' }

/-- A word requests the global OR of a mark, whose value is `v` (R77, R151). -/
def requestGor (ch : Chan) (x : OpCtx) (v : Bool) : Chan × OpCtx :=
  ({ ch with lau := { ch.lau with gors := ch.lau.gors ++ [{ tag := opRtag x.word, val := v, age := 0 }] } },
    { x with gorAge := 0, gorVal := v, gorReq := true })

/-- A word requests a count, which takes LPOS as its weight and moves it by LSTEP (R153). -/
def requestCount (ch : Chan) (x : OpCtx) (addend : Acc) : Chan × OpCtx :=
  let l := rootOf ch.lau x (.count addend)
  ({ ch with lau := movePos l (lstepVal l.lstep) }, { x with cntAge := 0, cntReq := true })

/-- The word's lauter request, with D and the start-of-cycle M and T (R81). -/
def lauterRequest (ch : Chan) (x : OpCtx) (w : Quad) (d m t : Sheet) : Chan × OpCtx :=
  let count := fun (n : Int) => requestCount ch x (countAddend ch.lau n)
  match wLaut w with
  | 1 => requestGor ch x (decide (d ≠ 0))
  | 2 => requestGor ch x (decide (m ≠ 0))
  | 3 => count (sheetPop d)
  | 4 => count ((sheetPop (d &&& ~~~t) : Int) - (sheetPop (d &&& t) : Int))
  | 5 => (lctl ch x (wUaddr w), x)
  | _ => (ch, x)

/-! ### Counters and the next address (R74, R75, R80, R84, R86) -/

/-- One AINC code. -/
def aincStep (code width : Nat) : Int :=
  match code with
  | 0 => 0
  | 1 => 1
  | 2 => -1
  | _ => (width : Int)

/-- The plane bases after AINC, modulo 8,192 (R80). -/
def aincBases (x : OpCtx) (w : Quad) (width : Nat) : Vector (BitVec 13) 4 :=
  Vector.ofFn fun i =>
    let on := fun (f code : Nat) => if f / 4096 % 4 = i.val then aincStep code width else 0
    BitVec.ofInt 13 ((x.pb[i].toNat : Int) + on (wA w) (wAinc w / 16 % 4) + on (wB w) (wAinc w / 4 % 4)
      + on (wD w) (wAinc w % 4))

/-- What LDLOOP loads, modulo 4,096 (LSRC table). -/
def lsrcValue (ch : Chan) (x : OpCtx) (w : Quad) : Nat :=
  let a := if usesDesc ch x then x.descA else 0
  let sc := (opScalar x.word).toNat
  let wd : Int := dWidth a
  let v : Int :=
    match wLsrc w with
    | 0 => (wUaddr w : Int)
    | 1 => wd
    | 2 => (dExpw a : Int)
    | 3 => wd - dExpw a - 1
    | 4 => (sc : Int)
    | 5 => ((sc / 4096 : Nat) : Int)
    | 6 => ((x.ulc.toList.getD (wLsel2 w) 0).toNat : Int)
    | _ => wd - 1
  uval 12 v

/-- Counter `k`. -/
def ulcAt (x : OpCtx) (k : Nat) : Nat := (x.ulc.toList.getD k 0).toNat

/-- Set counter `k`. -/
def setUlc (x : OpCtx) (k v : Nat) : OpCtx :=
  { x with ulc := Vector.ofFn fun i : Fin 4 => if i.val = k then BitVec.ofNat 12 v else x.ulc[i] }

/-- Go to a micro-address. -/
def goUpc (x : OpCtx) (a : Nat) : OpCtx := { x with upc := BitVec.ofNat 14 a }

/-- The sequencing action of a word (R74), with COND as it stood at the start of the micro-cycle, and LDEC. -/
def sequence (ch : Chan) (x : OpCtx) (w : Quad) (cond : Bool) : OpCtx :=
  let next := x.upc.toNat + 1
  let u := wUaddr w
  let k := wLsel w
  let x' :=
    match wSeq w with
    | 1 => goUpc x u
    | 2 => goUpc x (if cond then u else next)
    | 3 => goUpc x (if cond then next else u)
    | 4 => { goUpc x u with stack := BitVec.ofNat 14 next :: x.stack }
    | 5 => { x with upc := x.stack.headD 0, stack := x.stack.drop 1 }
    | 6 => if ulcAt x k > 1 then goUpc (setUlc x k (ulcAt x k - 1)) u else goUpc (setUlc x k 0) next
    | 7 => goUpc (setUlc x k (lsrcValue ch x w)) next
    | 9 => goUpc x u
    | 13 => x
    | _ => goUpc x next
  if wLdec w then setUlc x' k (ulcAt x' k - 1) else x'

/-! ### Waits (R46, R87, R403) -/

/-- The tuns whose set of written planes is full while the word writes plane memory in GUARDED mode (R403). -/
def verifyFull (ch : Chan) : Bool :=
  (List.range 64).any fun t => decide ((ch.arr.verify.filter fun v => decide (v / 4096 = t)).length ≥ 12)

/-- The edge dependencies of the word are met (R46). -/
def edgesMet (ch : Chan) (w : Quad) : Bool :=
  (edgesRead ch w).all (edgeReady ch) && (edgesSent ch w).all (creditReady ch)

/-- The word is a LOAD that must wait for earlier root effects (R154). (DEDUCED, log 33) -/
def loadBlocked (ch : Chan) (w : Quad) : Bool :=
  decide (wLaut w = 5 ∧ wUaddr w < 4096 ∧ wUaddr w / 256 % 16 = 6) && decide (ch.lau.roots ≠ [])

/-- Every condition of the word holds (R87). -/
def wordReady (ch : Chan) (x : OpCtx) (w : Quad) : Bool :=
  (decide (wSeq w ≠ 8 ∧ wSeq w ≠ 9) || condTrue ch x (wCond w)) && edgesMet ch w && !loadBlocked ch w
    && !(guarded ch && writesD w && verifyFull ch)

/-- `n` micro-cycles pass at the lauter tree (R20, R155, R161). -/
def ageLauter (l : Lau) (n : Nat) : Lau :=
  { l with
    gors := l.gors.map fun g => { g with age := min 24 (g.age + n) }
    shown := (l.shown.map fun p => (p.1, p.2 - n)).filter fun p => decide (p.2 ≠ 0)
    roots := l.roots.map fun r => { r with age := min 36 (r.age + n) } }

/-- `n` micro-cycles pass: the ages of requests grow to their limits, and a YIELD under way counts them
(R20, R77, R155, R448). (DESIGN CHOICE, log 3) -/
def passCycles (ch : Chan) (x : OpCtx) (n : Nat) : Chan × OpCtx :=
  ({ ch with
      lau := ageLauter ch.lau n
      trap := { ch.trap with yreq := ch.trap.yreq.map fun y => { y with cycles := y.cycles + n } } },
    { x with gorAge := min 18 (x.gorAge + n), cntAge := min 36 (x.cntAge + n) })

/-! ### One word -/

/-- The word has executed: the micro-count and the ages advance, and IDLE inserts an idle micro-cycle after a word that
touches plane memory (R63, R69). -/
def wordDone (ch : Chan) (x : OpCtx) (w : Quad) : Chan × OpCtx :=
  let r := passCycles { ch with seq := { ch.seq with waiting := false } } x
    (if wIdle w && touchesPlanes w then 2 else 1)
  (setIdle (wIdle w || !touchesPlanes w) r.1, { r.2 with ucount := r.2.ucount + 1 })

/-- The next word is the guard word of a system routine. -/
def atGuard (ch : Chan) (x : OpCtx) : Bool := eSys (rtabAt ch (opRoutine x.word)) && decide (x.ucount = 0)

/-- As `wordDone`, for a word of an op that runs by its description. The guard word reads plane 4,095 (R122); which other
words leave plane memory idle is open. (DESIGN CHOICE, log 29) -/
def behavDone (ch : Chan) (x : OpCtx) : Chan × OpCtx :=
  let r := wordDone ch x 0
  (setIdle (!atGuard ch x && Config.baseIdle (opRoutine x.word) x.ucount.toNat) r.1, r.2)

/-- C, X and T after an op of a base routine whose words stand in, other than routine 17: values that a program must not
rely on (R121). -/
def endLatches (ch : Chan) (x : OpCtx) : Chan :=
  let r := opRoutine x.word
  if standsIn ch r && decide (r ≠ 17) then freeLatches (inputsOf ch x) ch else ch

/-- The effects of a word that executes, up to its action on the op (R32, R74, R80, R81). -/
def wordEffects (ch : Chan) (x : OpCtx) (w : Quad) : Chan × OpCtx :=
  let cond := condTrue ch x (wCond w)
  let d := valueD ch x w
  let ch0 := wordCes ch x w
  let ch1 := edgeEffects ch (dataPath ch0 x w) w
  let r := lauterRequest ch1 x w d ch.arr.m ch.arr.t
  let x1 := sequence ch { r.2 with pb := aincBases x w (if usesDesc ch x then dWidth x.descA else 0) } w cond
  wordDone r.1 x1 w

/-- Execute the word (R74): its effects, then END, ENDTRAP, TRAPPT or HALT. -/
def executeWord (ch : Chan) (x : OpCtx) (w : Quad) : Chan :=
  let cond := condTrue ch x (wCond w)
  let r := wordEffects ch x w
  match wSeq w with
  | 10 => endOp (endLatches r.1 x) r.2 false
  | 12 => endOp (endLatches r.1 x) r.2 cond
  | 11 => if cond then midStop r.1 r.2 6 0 0 else { r.1 with seq := { r.1.seq with cur := some r.2 } }
  | 13 => midStop r.1 r.2 8 0 0
  | _ => { r.1 with seq := { r.1.seq with cur := some r.2 } }

/-- The sequencers present the word at the µPC for one micro-cycle: it faults at the boundary before it (R79, R56), it
waits (R87), or it executes. A word that breaks R79 faults without waiting. (DESIGN CHOICE, log 111) -/
def presentWord (ch : Chan) (x : OpCtx) (w : Quad) : Chan :=
  match rangeFault ch x w with
  | some (sub, ff) => midStop ch x 3 sub ff
  | none =>
    if wordReady ch x w = false then
      let r := passCycles ch x 1
      { r.1 with seq := { r.1.seq with waiting := true, cur := some r.2, planeIdle := true, idleUsed := 0 } }
    else
      match eccFault ch x w with
      | some f => eccStop ch x (wordPlanes x w) f
      | none => executeWord ch x w

/-! ### Base routines that run by their description -/

/-- The words of the op, with its verification words in GUARDED mode. -/
def opCost (ch : Chan) (x : OpCtx) (gd : Bool) : Nat :=
  let r := opRoutine x.word
  let present := if r = 99 ∨ r = 100 then scalesPresent ch r (opPb x.word 0) x.descA x.descB else []
  baseCost gd r x.descA (opScalar x.word) (usesDesc ch x) present

/-- The HALT word of the op, if it stops at one. -/
def opHalt (x : OpCtx) : Option Nat := haltAt (opRoutine x.word) x.descA x.descB (opScalar x.word)

/-- The SEQ code that stands for the next word of an op that runs by its description: HALT, END for the last word, or
INC. An op that a HALT word stops has no END before it. -/
def behavSeq (ch : Chan) (x : OpCtx) : Nat :=
  match opHalt x with
  | some n => if n = x.ucount.toNat then 13 else 0
  | none => if x.ucount.toNat + 1 ≥ opCost ch x (guarded ch) then 10 else 0

/-- The planes that an op of such a routine writes under M, and so reads as old D: its destination, and for FLAGCLR of
PEs with M = 1 the selected flag planes (R121, R146). -/
def maskedWrites (x : OpCtx) : List Nat :=
  let r := opRoutine x.word
  if r = 80 ∨ 82 ≤ r then []
  else if r = 81 then
    (if bit (opScalar x.word) 6 then ((List.range 6).filter (bit (opScalar x.word) ·)).map (4088 + ·) else [])
  else planeRun (opPb x.word 2) (destWidth r (dWidth x.descA))

/-- The uncorrectable code words of an old destination plane that M does not wholly cover. -/
def oldFault (ch : Chan) (p : Nat) : List Nat := (planeUes ch p).filter fun k => !wholeWord ch.arr.m k

/-- The first uncorrectable read of the last word of such an op: of an operand, of a system plane, or of an old
destination plane in a code word not wholly enabled by M (R56, R57). (DESIGN CHOICE, log 29) -/
def behavFault (ch : Chan) (x : OpCtx) : Option (Nat × Nat × Nat) :=
  match (behavReads ch x).find? fun p => decide (planeUes ch p.2 ≠ []) with
  | some (ff, p) => some (ff, p, (planeUes ch p).headD 0)
  | none =>
    ((maskedWrites x).find? fun p => decide (oldFault ch p ≠ [])).map fun p => (2, p, (oldFault ch p).headD 0)

/-- The planes that the last word of such an op stands for the reads of. -/
def behavPlanes (ch : Chan) (x : OpCtx) : List Nat :=
  ((behavReads ch x).map (·.2) ++ maskedWrites x).eraseDups

/-- The corrected errors that such an op finds, and the wholly enabled uncorrectable words of old destination planes,
which count as corrected ones (R55, R57). -/
def behavCes (ch : Chan) (x : OpCtx) : Chan :=
  (maskedWrites x).foldl (fun acc p => (planeUes ch p).foldl (fun acc k => countPlaneCe acc p k) acc)
    ((behavPlanes ch x).foldl readCes ch)

/-- The stop at the boundary before the next word of such an op where that word faults: the guard word, PLANE_RANGE when
PB3 is not 0 and else PLANE_ECC of plane 4,095 (R122), and the last word, PLANE_ECC of its reads. -/
def behavStop (ch : Chan) (x : OpCtx) : Option Chan :=
  if atGuard ch x then
    if opPb x.word 3 ≠ 0 then some (midStop ch x 3 1 0)
    else if planeUes ch 4095 ≠ [] then some (eccStop ch x [4095] (0, 4095, (planeUes ch 4095).headD 0))
    else none
  else if behavSeq ch x = 10 then (behavFault ch x).map (eccStop ch x (behavPlanes ch x))
  else none

/-- The number of the next word among those of the routine itself; none for a verification word of GUARDED mode (R403).
(DEDUCED, log 30) -/
def plainIndex (ch : Chan) (x : OpCtx) : Option Nat :=
  let j := x.ucount.toNat
  if guarded ch then
    let total := opCost ch x true
    if verifyWord (opCost ch x false) total j then none
    else some (if j + 1 = total then opCost ch x false - 1 else j - j / 13)
  else some j

/-- A setup word of LSUMF or LSUMX (06, The search): one sets LSTEP, the last sets the status bits of the special values, and
the others may request global ORs, or set those bits earlier. (DESIGN CHOICE, log 34) -/
def setupWord (ch : Chan) (x : OpCtx) (k : Search) (n : Nat) : Chan × OpCtx :=
  let i := sumInputs ch x
  let flags := (sumStatus ch x).foldl (fun acc f => acc ||| f) 0
  let sflag := fun (f : BitVec 4) => if f = 0 then ch else { ch with lau := rootOf ch.lau x (.sflag f) }
  let pos := Config.sumSetpos i
  if n = 0 then (ch, x)
  else if n + 1 = setupLen k then (sflag flags, x)
  else if n = 1 + pos.1 % (setupLen k - 2) then ({ ch with lau := { ch.lau with lpos := pos.2, lstep := 0 } }, x)
  else
    match Config.sumGor i n with
    | some v => requestGor ch x v
    | none => (sflag (flags &&& Config.sumFlags i n), x)

/-- A stream word of LSUMF or LSUMX counts significand plane `k` of scale index `u` (R153, R157). -/
def streamWord (ch : Chan) (x : OpCtx) (u k : Nat) : Chan × OpCtx :=
  requestCount ch x
    (if sumUnstated ch x then Config.sumPart (sumInputs ch x) x.ucount.toNat
      else countAddend ch.lau (sumCount ch x u k))

/-- A word of LSUMF or LSUMX before the last (06, The search; R151, R157, R160): it makes at most one request of the tree.
The mark of a group is requested 18 words before the group's own end; five words mark a value, the last of which requests
the mark and sets LPOS; 17 planes, a JNC word and the other planes of a marked value follow. (DESIGN CHOICE, log 34) -/
def sumWord (ch : Chan) (x : OpCtx) : Chan × OpCtx :=
  let r := opRoutine x.word
  let k := searchOf r x.descA
  let present := scalesPresent ch r (opPb x.word 0) x.descA x.descB
  match (plainIndex ch x).map (searchWord k present) with
  | some (.setup n) => setupWord ch x k n
  | some (.group g n) => if n + 5 = k.nb then requestGor ch x ((present.map (· / 32)).contains g) else (ch, x)
  | some (.value u n) =>
    if n = 4 then
      requestGor { ch with lau := { ch.lau with
        lpos := BitVec.ofInt 13 (2176 + scaleMin r x.descA x.descB + u), lstep := 0 } } x (present.contains u)
    else if 5 ≤ n ∧ n < 22 ∧ n - 5 < k.q then streamWord ch x u (n - 5)
    else if 23 ≤ n ∧ n - 6 < k.q ∧ u ∈ present then streamWord ch x u (n - 6)
    else (ch, x)
  | _ => (ch, x)

/-- The requests of the words of an op that runs by its description, before its last: those of a sum, and FLAGSUM's of one
flag plane each, 18 micro-cycles before it needs the last of them (R146, R155). (DESIGN CHOICE, log 111) -/
def behavRequest (ch : Chan) (x : OpCtx) : Chan × OpCtx :=
  let r := opRoutine x.word
  if (r = 99 ∨ r = 100) ∧ opHalt x = none then sumWord ch x
  else if r = 80 then
    match plainIndex ch x with
    | some n => if 7 ≤ n ∧ n < 13 then requestGor ch x (decide (planeOf ch (4088 + (n - 7)) ≠ 0)) else (ch, x)
    | none => (ch, x)
  else (ch, x)

/-- One word of an op that runs by its description. The first word of a system routine is its guard word, which changes
nothing; the words of a sum and of FLAGSUM make their lauter requests; the last word applies the routine's effect (R120,
R122, R145, R155). -/
def behavWord (ch : Chan) (x : OpCtx) : Chan :=
  match behavStop ch x with
  | some ch => ch
  | none =>
    match behavSeq ch x with
    | 13 =>
      let d := behavDone ch x
      midStop d.1 d.2 8 0 0
    | 10 =>
      let d := behavDone (applyBase (behavCes ch x) x) x
      endOp d.1 d.2 false
    | _ =>
      let ch := if atGuard ch x then readCes ch 4095 else ch
      let r := behavRequest ch x
      let d := behavDone r.1 r.2
      { d.1 with seq := { d.1.seq with cur := some d.2 } }

/-- In GUARDED mode, the next word of a base routine that executes words is a verification word, which does nothing (R403).
(DEDUCED, log 30) -/
def isVerify (ch : Chan) (x : OpCtx) : Bool :=
  let r := opRoutine x.word
  guarded ch && isBase ch r && !isBehav ch r && decide (wSeq (wordAt ch (opRoutine x.word) x.upc.toNat) ≠ 13)
    && verifyWord (opCost ch x false) (opCost ch x true) x.ucount.toNat

/-! ### The SEQ commands -/

/-- The boundary of a YIELD has come (R448): the micro-cycles n, n + 1 and n + 2 have passed since the request.
(DESIGN CHOICE, log 27) -/
def yieldDue (ch : Chan) : Bool :=
  match ch.trap.yreq with
  | some y => decide (y.cycles ≥ 3)
  | none => false

/-- The op that presents a word in this micro-cycle: the channel runs, and neither a drain, a capture edge nor the
boundary of a YIELD comes first. (DESIGN CHOICE, log 27) -/
def presenting (ch : Chan) : Option OpCtx :=
  if chanRunning ch && ch.trap.drain.isNone && !captureDue ch && !yieldDue ch then ch.seq.cur else none

/-- The restore has ended when the word at UPC is presented: STATE becomes NONE (R108). An op continued from the second
save set after a tun repair leaves that set (R111). -/
def leaveRestore (ch : Chan) : Chan :=
  { ch with trap := { ch.trap with state := if ch.trap.state = 3 then 0 else ch.trap.state, repairSet := false } }

/-- A SEQ command: the sequencers present the next word, whose SEQ code is the one given. It changes nothing when no op
presents a word, or the word's code is another one. (DESIGN CHOICE, log 2) -/
def seqCommand (code : Nat) (ch : Chan) : Chan :=
  match presenting ch with
  | none => ch
  | some x =>
    if opRoutine x.word = 0 then ch
    else if isBehav ch (opRoutine x.word) then
      if behavSeq ch x = code then behavWord (fetchUstore (leaveRestore ch) (shownUpc ch x).toNat) x else ch
    else if isVerify ch x then
      if code = 0 then
        let d := wordDone (fetchUstore (leaveRestore ch)
          (Config.baseUpc (opRoutine x.word) x.ucount.toNat).toNat) x 0
        { d.1 with seq := { d.1.seq with cur := some d.2 } }
      else ch
    else
      let w := wordAt ch (opRoutine x.word) x.upc.toNat
      if wSeq w = code then presentWord (fetchUstore (leaveRestore ch) x.upc.toNat) x w else ch

/-- ADMIT: one of its words, which touch no plane memory; it executes max(1, SCALAR) of them (R64, R72). -/
def admitCommand (ch : Chan) : Chan :=
  match presenting ch with
  | none => ch
  | some x =>
    if opRoutine x.word ≠ 0 then ch
    else
      let d := wordDone (leaveRestore ch) x 0
      if d.2.ucount.toNat ≥ max 1 (opScalar x.word).toNat then endOp d.1 d.2 false
      else { d.1 with seq := { d.1.seq with cur := some d.2 } }

/-- SEQ INC (R74). -/
def execSeqInc (c : Ch) (s : State) : Host.Outcome State Fault Refusal := onChan c (seqCommand 0) s

/-- SEQ JMP (R74). -/
def execSeqJmp (c : Ch) (s : State) : Host.Outcome State Fault Refusal := onChan c (seqCommand 1) s

/-- SEQ JC (R74). -/
def execSeqJc (c : Ch) (s : State) : Host.Outcome State Fault Refusal := onChan c (seqCommand 2) s

/-- SEQ JNC (R74). -/
def execSeqJnc (c : Ch) (s : State) : Host.Outcome State Fault Refusal := onChan c (seqCommand 3) s

/-- SEQ CALL (R74). -/
def execSeqCall (c : Ch) (s : State) : Host.Outcome State Fault Refusal := onChan c (seqCommand 4) s

/-- SEQ RET (R74). -/
def execSeqRet (c : Ch) (s : State) : Host.Outcome State Fault Refusal := onChan c (seqCommand 5) s

/-- SEQ LOOP (R74, R75). -/
def execSeqLoop (c : Ch) (s : State) : Host.Outcome State Fault Refusal := onChan c (seqCommand 6) s

/-- SEQ LDLOOP (R74). -/
def execSeqLdloop (c : Ch) (s : State) : Host.Outcome State Fault Refusal := onChan c (seqCommand 7) s

/-- SEQ WAIT (R74, R87). -/
def execSeqWait (c : Ch) (s : State) : Host.Outcome State Fault Refusal := onChan c (seqCommand 8) s

/-- SEQ WAITJ (R74, R87). -/
def execSeqWaitj (c : Ch) (s : State) : Host.Outcome State Fault Refusal := onChan c (seqCommand 9) s

/-- SEQ END (R74). -/
def execSeqEnd (c : Ch) (s : State) : Host.Outcome State Fault Refusal := onChan c (seqCommand 10) s

/-- SEQ TRAPPT (R74). -/
def execSeqTrappt (c : Ch) (s : State) : Host.Outcome State Fault Refusal := onChan c (seqCommand 11) s

/-- SEQ ENDTRAP (R74). -/
def execSeqEndtrap (c : Ch) (s : State) : Host.Outcome State Fault Refusal := onChan c (seqCommand 12) s

/-- SEQ HALT (R74). -/
def execSeqHalt (c : Ch) (s : State) : Host.Outcome State Fault Refusal := onChan c (seqCommand 13) s

/-- ADMIT (R64, R72). -/
def execAdmit (c : Ch) (s : State) : Host.Outcome State Fault Refusal := onChan c admitCommand s

/-- The release strobe: a waiting word whose conditions all hold executes, in every sequencer at once (R46, R87). -/
def releaseStrobe (ch : Chan) : Chan :=
  match presenting ch with
  | none => ch
  | some x =>
    let w := wordAt ch (opRoutine x.word) x.upc.toNat
    if ch.seq.waiting && wordReady ch x w then presentWord (leaveRestore ch) x w else ch

/-- EDGE_RELEASE_STROBE (R87). -/
def execEdgeReleaseStrobe (c : Ch) (s : State) : Host.Outcome State Fault Refusal := onChan c releaseStrobe s

/-- A wait under R46 has lasted LIMIT micro-cycles: STALL is set and ARRAY_EDGE is raised (R48). -/
def edgeStallLimit (ch : Chan) : Chan :=
  match ch.seq.cur with
  | none => ch
  | some x =>
    if ch.seq.waiting && !edgesMet ch (wordAt ch (opRoutine x.word) x.upc.toNat) && decide (ch.arr.stallLimit ≠ 0) && chanRunning ch then
      raiseLine { ch with arr := { ch.arr with stall := true } } 1
    else ch

/-- EDGE_STALL_LIMIT (R48). -/
def execEdgeStallLimit (c : Ch) (s : State) : Host.Outcome State Fault Refusal := onChan c edgeStallLimit s

/-! ### YIELD_BOUNDARY and TRAP_SAVE_COMPLETE -/

/-- The stop at the boundary before the next word where that word would fault; ADMIT's words touch nothing. -/
def wordStop (ch : Chan) (x : OpCtx) : Option Chan :=
  if opRoutine x.word = 0 ∨ isVerify ch x = true then none
  else if isBehav ch (opRoutine x.word) then behavStop ch x
  else
    let w := wordAt ch (opRoutine x.word) x.upc.toNat
    match rangeFault ch x w with
    | some (sub, ff) => some (midStop ch x 3 sub ff)
    | none => if wordReady ch x w then (eccFault ch x w).map (eccStop ch x (wordPlanes x w)) else none

/-- A mid-op stop that no word asks for, at the boundary before the next word: where that word would fault, its own cause
stands first (R97). -/
def boundaryStop (cause : Nat) (ch : Chan) (x : OpCtx) : Chan :=
  let ch := leaveRestore ch
  match wordStop ch x with
  | some ch' => ch'
  | none => midStop ch x cause 0 0

/-- A YIELD takes effect at the boundary before the first word that has not executed by the end of micro-cycle n + 2: a
higher cause present there is recorded in its place, in the order of R97, and a capture edge there comes first; with no
op executing it is answered IDLE (R106, R448). -/
def yieldBoundary (ch : Chan) : Chan :=
  match ch.trap.yreq with
  | none => ch
  | some y =>
    if chanRunning ch = false ∨ ch.trap.drain.isSome ∨ captureDue ch then ch
    else
      match ch.seq.cur with
      | none => answerYield (setStop ch 9 0 0) y.ctl 2
      | some x => if yieldDue ch then boundaryStop 9 ch x else ch

/-- YIELD_BOUNDARY (R448). -/
def execYieldBoundary (c : Ch) (s : State) : Host.Outcome State Fault Refusal := onChan c yieldBoundary s

/-- The drain ends once every lauter request made before the boundary has reached the root (R100, R112). -/
def trapSaveComplete (ch : Chan) : Chan :=
  match ch.trap.drain with
  | none => ch
  | some d => if drained ch && chanRunning ch then finishDrain ch d else ch

/-- TRAP_SAVE_COMPLETE (R100). -/
def execTrapSaveComplete (c : Ch) (s : State) : Host.Outcome State Fault Refusal := onChan c trapSaveComplete s

end Sys2Proof.Machine
end

