-- ==== Sys2Proof/Machine/Issue.lean ====
section
/-! DEFINITION. Issue of array ops, the draw sequence, issue control, ABANDON, the signature comparison and tun repair
(R60, R61, R66 to R71, R89, R101, R109, R111, R139, R140). -/

namespace Sys2Proof.Machine

/-! ### The draw (R139 to R141) -/

/-- The draw function of R140: seed, draw coordinate and draw counter give 32 bits. -/
def drawBits (seed c n : BitVec 64) : Word :=
  let m1 : BitVec 64 := 0x9A3F5C27E84D16B3
  let m2 : BitVec 64 := 0xC2D671A93B58E40F
  let x := seed ^^^ (c * m1)
  let x := x + n * m2
  let x := x ^^^ (x >>> 29)
  let x := x * m1
  let x := x ^^^ (x >>> 32)
  let x := x * m2
  let x := x ^^^ (x >>> 31)
  x.setWidth 32

/-- The draw coordinate of PE `i` under ARRAY_SR_ORIGIN (R140). -/
def drawCoord (origin : Half) (i : Nat) : BitVec 64 :=
  let grow := 1024 * fld origin 4 6 + i / 1024
  let gcol := 1024 * fld origin 10 6 + i % 1024
  BitVec.ofNat 64 (fld origin 0 4 * 2 ^ 32 + grow * 2 ^ 16 + gcol)

/-- The draw sequence writes bit `k` of each PE's draw into plane 4,032 + `k` (R139). -/
def drawSequence (ch : Chan) (seed n : BitVec 64) : Chan :=
  (List.range 32).foldl (fun acc k =>
    putPlane acc (4032 + k) (sheetOf fun i => (drawBits seed (drawCoord ch.fmt.origin i) n).getLsbD k)) ch

/-! ### Issue -/

/-- The sequencer state at the start of an op (R70), with the descriptor, the seed and the draw counter that it reads
at issue. -/
def startCtx (ch : Chan) (q : Quad) : OpCtx :=
  { word := q
    step := ch.seq.stepcount
    ucount := 0
    upc := BitVec.ofNat 14 (eEntry (rtabAt ch (opRoutine q)))
    stack := []
    ulc := Vector.replicate 4 0
    pb := Vector.ofFn fun i : Fin 4 => BitVec.ofNat 13 (opPb q i.val)
    descA := issueA ch q
    descB := issueB ch q
    gorAge := 18
    gorVal := false
    gorReq := false
    cntAge := 36
    cntReq := false
    seed := ch.fmt.seed.value
    drawN := ch.seq.stepcount - ch.fmt.epoch.value }

/-- The draw sequence takes 32 micro-cycles (R139). -/
def passDraw (ch : Chan) : Chan := setIdle false { ch with lau := ageLauter ch.lau 32 }

/-- An op passes the checks: it takes its step number, starts, and draws when its descriptor selects SR (R68 to R70,
R139). -/
def startOp (ch : Chan) (q : Quad) : Chan :=
  let x := startCtx ch q
  let ch := if dRound x.descA = 5 ∧ eUsesGfd (rtabAt ch (opRoutine q)) = true
    then passDraw (drawSequence ch x.seed x.drawN) else ch
  { ch with seq := { ch.seq with
    queue := ch.seq.queue.drop 1, stepcount := ch.seq.stepcount + 1, cur := some x, waiting := false } }

/-- The head op comes to issue. Plane memory in retention wakes first, and holds the issue until it is awake (R246). -/
def issueCommand (ch : Chan) : Chan :=
  if mayIssue ch = false then ch
  else
    match ch.seq.queue with
    | [] => ch
    | q :: _ =>
      if ch.mem.planeRet then { ch with mem := { ch.mem with planeRet := false, waking := true } }
      else
        let ch := fetchRoutine { ch with mem := { ch.mem with waking := false } } q
        match issueFault ch q with
        | some (cause, base) => refuseOp ch q cause base
        | none => startOp ch q

/-- ARRAY_OP_ISSUE (R66 to R71, R139). -/
def execArrayOpIssue (c : Ch) (s : State) : Host.Outcome State Fault Refusal := onChan c issueCommand s

/-! ### ARRAY_QCTL and ARRAY_TRAP_CTL (R67, R107, R109) -/

/-- Discard the head op and act as GO; ignored when ISSUE_STOP is 0. -/
def qctlDrop (ch : Chan) : Chan :=
  if ch.seq.stop then qctlGo { ch with seq := { ch.seq with queue := ch.seq.queue.drop 1 } } else ch

/-- Discard every queued op and clear ISSUE_STOP; ignored when ISSUE_STOP is 0. -/
def qctlFlush (ch : Chan) : Chan :=
  if ch.seq.stop then { ch with seq := { ch.seq with queue := [], stop := false } } else ch

/-- A write of ARRAY_QCTL: FLUSH before DROP before GO (ARRAY_QCTL card). -/
def writeQctl (ch : Chan) (v : Word) : Chan :=
  if bit v 2 then qctlFlush ch else if bit v 1 then qctlDrop ch else if bit v 0 then qctlGo ch else ch

/-- A write of ARRAY_TRAP_CTL: ABANDON while STATE is SAVED (R109). -/
def writeTrapCtl (ch : Chan) (v : Word) : Chan :=
  if bit v 0 ∧ ch.trap.state = 2 then abandon ch else ch

/-- A register write that the spec lists as a step of its own; it reaches the channel while the channel runs. -/
def whileRunning (f : Chan → Chan) (ch : Chan) : Chan := if chanRunning ch then f ch else ch

/-- ARRAY_QCTL.GO (R67). -/
def execArrayQctlGo (c : Ch) (s : State) : Host.Outcome State Fault Refusal :=
  onChan c (whileRunning fun ch => writeQctl ch 1) s

/-- ARRAY_QCTL.DROP (R67). -/
def execArrayQctlDrop (c : Ch) (s : State) : Host.Outcome State Fault Refusal :=
  onChan c (whileRunning fun ch => writeQctl ch 2) s

/-- ARRAY_QCTL.FLUSH (R67). -/
def execArrayQctlFlush (c : Ch) (s : State) : Host.Outcome State Fault Refusal :=
  onChan c (whileRunning fun ch => writeQctl ch 4) s

/-- ARRAY_TRAP_CTL.ABANDON (R109). -/
def execArrayTrapCtlAbandon (c : Ch) (s : State) : Host.Outcome State Fault Refusal :=
  onChan c (whileRunning fun ch => writeTrapCtl ch 1) s

/-! ### Tun repair (R60, R61, R111) -/

/-- The code words of a logical tun. -/
def tunWords (t : Nat) : List Nat :=
  (List.range 128).flatMap fun r => [(128 * (t / 8) + r) * 16 + 2 * (t % 8), (128 * (t / 8) + r) * 16 + 2 * (t % 8) + 1]

/-- Planes of a logical tun hold an uncorrectable word. (DEDUCED, log 31) -/
def tunUnreadable (ch : Chan) (t : Nat) : Bool :=
  ch.arr.marks.any fun m => m.ue && decide (tunOfWord m.word = t)

/-- The spare of a tun row can be taken: position 8 is unused and sound. -/
def spareFree (ch : Chan) (tr : Nat) : Bool :=
  decide (ch.arr.tunMap.toList.getD tr 8 = 8) && !ch.arr.spareBad.getLsbD tr

/-- Set the position out of service of a row. -/
def setTunOut (ch : Chan) (tr p : Nat) : Chan :=
  { ch with arr := { ch.arr with
    tunMap := Vector.ofFn fun i : Fin 8 => if i.val = tr then BitVec.ofNat 4 p else ch.arr.tunMap[i] } }

/-- Step 1 of R60: the latches go to the trap-save planes; while STATE is SAVED and a preempting op runs, to planes 4,068 to
4,071 and its sequencer state to the second save block, which is in use until the op goes on (R111); while STATE is SAVED
and no op runs, nothing is saved. -/
def repairSave (ch : Chan) : Chan :=
  let put := fun (b : Nat) =>
    putPlane (putPlane (putPlane (putPlane ch b ch.arr.c) (b + 1) ch.arr.m) (b + 2) ch.arr.x) (b + 3) ch.arr.t
  if ch.trap.state = 1 then ch
  else if ch.trap.state = 2 then
    match ch.seq.cur with
    | some x =>
      let save := saveBlock ch x 0 0 0
      let ch := put 4068
      { ch with trap := { ch.trap with save2 := save, repairSet := true } }
    | none => ch
  else put 4064

/-- The copy of planes of R60 reads and writes every code word of the tuns that move, those from logical column `p` on: their
single-bit errors are counted, and the copies hold corrected data with fresh check bits (R54, R55). Those of the fenced tun
are met like the others. -/
def copyTuns (ch : Chan) (tr p : Nat) : Chan :=
  let moved := fun (w : Nat) => decide (tunOfWord w / 8 = tr ∧ p ≤ tunOfWord w % 8)
  let met := ch.arr.marks.filter fun m => !m.ue && moved m.word
  let ch := met.foldl (fun ch m => countPlaneCe ch m.plane m.word) ch
  { ch with arr := { ch.arr with
    marks := ch.arr.marks.filter fun m => m.ue || !moved m.word
    writeback := ch.arr.writeback.filter fun x => !moved x.2 } }

/-- Fence the tun at physical position `p` of a row and shift its logical tuns onto the spare (R60). The array stalls
and resumes, so no program sees more than ARRAY_TUN_MAP change. A row whose spare is used or unusable cannot be
repaired, and the channel fences itself, for good (R61); unreadable planes fence it too. The second answer says that
the channel stays fenced across restarts. -/
def repairTun (ch : Chan) (tr p : Nat) : Chan × Bool :=
  let unit := BitVec.ofNat 8 (9 * tr + p)
  if spareFree ch tr = false then (fenceChan ch 0x06 unit 0, true)
  else
    let ch := report ch .ce 0x04 unit 0
    if tunUnreadable ch (8 * tr + p) then (fenceChan ch 0x05 unit 0, false)
    else (setTunOut (copyTuns (repairSave ch) tr p) tr p, false)

/-- Repair several tuns in one stall. (DEDUCED, log 31) -/
def repairTuns (ch : Chan) : List (Nat × Nat) → Chan × Bool
  | [] => (ch, false)
  | (tr, p) :: t =>
    let r := repairTun ch tr p
    let r' := repairTuns r.1 t
    (r'.1, r.2 || r'.2)

/-- The tuns whose signatures differ: those named, and those whose sequencers fetched an uncorrectable word. -/
def differing (ch : Chan) (bad : BitVec 64) : List Nat :=
  (List.range 64).filter fun t => (bad ||| ch.seq.badSig).getLsbD t

/-- SEQ_FAULT where a majority survives, UCC 0x07 (R89, R394): a running op is stopped and saved; in a drain the save goes
on with this cause; with no op at all issue stops and ARRAY is raised. (DESIGN CHOICE, log 111) -/
def seqFault (ch : Chan) : Chan :=
  match ch.seq.cur, ch.trap.drain with
  | some x, _ => midStop (report ch .ucc 0x07 0 (x.step.setWidth 32)) x 5 0 0
  | none, some d =>
    let ch := { report ch .ucc 0x07 0 0 with seq := { ch.seq with
      issueCause := BitVec.ofNat 20 (5 + fld ch.seq.issueCause 8 10 * 256) } }
    let c0 := (ch.trap.save[0] &&& 0xFC03FFFF#32) ||| BitVec.ofNat 32 (5 * 2 ^ 18)
    { ch with trap := { ch.trap with
      cause := 5, save := if d.nosave then ch.trap.save else ch.trap.save.set 0 c0
      drain := some { d with cause := 5, quiet := false } } }
  | none, none => raiseArray (setStop (report ch .ucc 0x07 0 0) 5 0 0) 5

/-- No value is shared by 33 sequencers: the channel is fenced. During a trap-save drain it stops first with cause
SEQ_FAULT and NOSAVE, and the save under way is given up (R89, R101, R398). -/
def noMajority (ch : Chan) : Chan :=
  match ch.trap.drain with
  | some d =>
    let ch := raiseArray (setStop ch 5 (fld ch.seq.issueCause 8 10) 0) 5
    fenceChan { ch with trap := { ch.trap with
      state := if d.nosave then ch.trap.state else 0
      holds := if d.nosave then ch.trap.holds else Vector.replicate 4 0
      cause := 5, sub := 0, ffield := 0, nosave := true, drain := none } } 0x07 0 0
  | none => fenceChan ch 0x07 0 0

/-- The root comparison (R89, R101): one sequencer differing, or several in different tun rows, are repaired, and the
planes and latches are those of an unfaulted run (R88); two in one row raise SEQ_FAULT; without a majority of 33 the
channel is fenced. Two differing sequencers in one row may share a vote of R88: the model keeps the unfaulted planes and
latches then too. (DESIGN CHOICE, log 111) -/
def signatureCompare (bad : BitVec 64) (ch : Chan) : Chan × Bool :=
  let ts := differing ch bad
  let rows := ts.map (· / 8)
  let ch := { ch with seq := { ch.seq with badSig := 0 } }
  if ts = [] ∨ chanRunning ch = false then (ch, false)
  else if ts.length ≤ 31 ∧ rows.eraseDups.length = rows.length then
    match rows.find? fun tr => !spareFree ch tr with
    | some tr => (fenceChan ch 0x06 (tunUnit ch tr (((ts.find? fun t => decide (t / 8 = tr)).getD 0) % 8)) 0, true)
    | none => repairTuns ch (ts.map fun t => (t / 8, physPos ch (t / 8) (t % 8)))
  else if ts.length ≤ 31 then (seqFault ch, false)
  else (noMajority ch, false)

/-- A channel whose row cannot be repaired stays fenced across restarts (R61, FENCE_STAT.HELD). -/
def holdFence (c : Ch) (held : Bool) (h : Hub) : Hub :=
  if held then { h with held := h.held ||| BitVec.ofNat 16 (2 ^ c.val) } else h

/-- SIGNATURE_COMPARE (R89). `bad` names the tuns whose signature differs from the value that most share. -/
def execSignatureCompare (c : Ch) (bad : BitVec 64) (s : State) : Host.Outcome State Fault Refusal :=
  onBoth c (fun ch h =>
    let r := signatureCompare bad ch
    (r.1, recordRepairs c r.1 (holdFence c r.2 h))) s

/-! ### Plane write-back, GUARDED read-back, arriving slots -/

/-- The channel's memories are clocked: it is in RUN or IDLE and not frozen. -/
def memoriesClocked (ch : Chan) : Bool := (decide (ch.cstate = .run) || decide (ch.cstate = .idle)) && !frozen ch

/-- Plane memory of a tun can be accessed in an idle micro-cycle: it is clocked and not in retention (R62, R244). -/
def planeFree (ch : Chan) (tun : Nat) : Bool := memoriesClocked ch && !ch.mem.planeRet && tunIdle ch tun

/-- A corrected code word of a tun waits to be written back, ahead of every other use of an idle micro-cycle (R62). -/
def backPending (ch : Chan) (tun : Nat) : Bool := ch.arr.writeback.any fun x => decide (tunOfWord x.2 = tun)

/-- GUARDED read-back of a tun waits, ahead of staging and sparge (R403). -/
def verifyPending (ch : Chan) (tun : Nat) : Bool := guarded ch && ch.arr.verify.any fun v => decide (v / 4096 = tun)

/-- A corrected code word of a tun is written back, ahead of staging and sparge (R55, R62). -/
def planeCeWriteback (tun : Nat) (ch : Chan) : Chan :=
  if planeFree ch tun = false then ch
  else
    match ch.arr.writeback.find? fun x => decide (tunOfWord x.2 = tun) with
    | none => ch
    | some x =>
      let ch := notePlane ch x.1 (fun t => decide (t = tun)) .mixed
      useIdle tun { ch with arr := { ch.arr with
        writeback := ch.arr.writeback.erase x
        marks := ch.arr.marks.filter fun m => !(decide (m.plane = x.1 ∧ m.word = x.2) && !m.ue) } }

/-- A code word becomes uncorrectable. -/
def poisonWord (ch : Chan) (p w : Nat) : Chan :=
  { ch with arr := { ch.arr with
    marks := { plane := p, word := w, ue := true } :: ch.arr.marks.filter fun m => decide (m.plane ≠ p ∨ m.word ≠ w) } }

/-- A tun reads back up to 12 pending planes, after the ECC write-back: `bad` names the code words that do not match, as
plane · 16,384 + word. Each is poisoned and reported, UCC 0x13 with MCHK EVENT (R394, R403). -/
def guardedVerify (tun : Nat) (bad : List Nat) (ch : Chan) : Chan :=
  let batch := ((ch.arr.verify.filter fun v => decide (v / 4096 = tun)).take 12)
  let ch := useIdle tun { ch with arr := { ch.arr with verify := ch.arr.verify.filter fun v => !decide (v ∈ batch) } }
  (bad.filter fun b => decide (tunOfWord (b % 16384) = tun ∧ 4096 * tun + b / 16384 ∈ batch)).foldl
    (fun ch b => reportUccEvent (poisonWord ch (b / 16384) (b % 16384)) 0x13 (wordUnit ch (b % 16384))
      (BitVec.ofNat 32 (b / 16384))) ch

/-- GUARDED_WRITE_VERIFY (R403). -/
def execGuardedWriteVerify (c : Ch) (tun : Fin 64) (bad : List Nat) (s : State) : Host.Outcome State Fault Refusal :=
  onChan c (fun ch =>
    if planeFree ch tun.val && verifyPending ch tun.val && !backPending ch tun.val then guardedVerify tun.val bad ch
    else ch) s

/-- The slot at the head of what an edge's port has received; the clocks of a frozen channel stand still, while the keg block
of a fenced one relays (R16, R405, R409). -/
def arrivedSlot (ch : Chan) (e : Nat) : Option Slot :=
  if frozen ch ∧ ch.cstate ≠ .fenced then none else (ch.keg.links.toList.getD (edgePort e) Link.reset).rxSlots.head?

/-- A slot enters the edge buffer, which holds 64 (R43, R46). -/
def bufferSlot (e : Nat) (slot : Slot) (ch : Chan) : Chan :=
  setEdge ch e { edgeAt ch e with buf := (edgeAt ch e).buf ++ [slot] }

/-- The channels whose buffers take a slot that arrives at an edge of channel `c`. The W edge of the even channel of a PAIRED
pair and the E edge of the odd one serve both members that still run; a fenced member's keg block passes the slot on
(R404, R405). -/
def slotTakers (s : State) (c : Ch) (e : Nat) : List Ch :=
  if (s.chan c).err.mode ≠ 2 then [c]
  else
    if (c.val % 2 = 0 ∧ e = 3) ∨ (c.val % 2 = 1 ∧ e = 1) then
      [c, partnerOf c].filter fun d => !(s.chan (partnerOf d)).err.solo
    else if e = 1 ∨ e = 3 then []
    else [c]

/-- The interior link of the pair of channel `c`, from the even one's +X port to the odd one's −X port, carries traffic
(R404). -/
def interiorUp (s : State) (c : Ch) : Bool :=
  let e := if c.val % 2 = 0 then c else partnerOf c
  let a := (s.chan e).keg.ports[1]
  let b := (s.chan (partnerOf e)).keg.ports[0]
  decide (a.low.getD a.state = .up) && decide (b.low.getD b.state = .up)

/-- A mirror copy for the other member waits for the interior link (R404). (DESIGN CHOICE, log 93) -/
def mirrorWaits (s : State) (c : Ch) (ds : List Ch) : Bool := (ds.any fun d => decide (d ≠ c)) && !interiorUp s c

/-- EDGE_SLOT_ARRIVE: a received edge slot enters the edge buffer that its port serves (R321). -/
def execEdgeSlotArrive (c : Ch) (e : Fin 4) (s : State) : Host.Outcome State Fault Refusal :=
  match arrivedSlot (s.chan c) e.val with
  | none => .next s
  | some slot =>
    if (edgeAt (s.chan c) e.val).buf.length ≥ 64 ∨ mirrorWaits s c (slotTakers s c e.val) = true then .next s
    else
      let s' := s.setChan c (setLink (s.chan c) (edgePort e.val) fun l => { l with rxSlots := l.rxSlots.drop 1 })
      .next ((slotTakers s c e.val).foldl (fun s d => s.setChan d (bufferSlot e.val slot (s.chan d))) s')

end Sys2Proof.Machine
end

