-- ==== Sys2Proof/Machine/Lauter.lean ====
section
/-! DEFINITION. Effects at the lauter root: global ORs, counts, control operations, images, the receive bank and LROUND
(R77, R151 to R155, R161 to R169). -/

namespace Sys2Proof.Machine

/-! ### Global ORs -/

/-- POISON becomes set in a structure at the lauter root (R169). -/
def poisonLauter (l : Lau) (part : LauPart) : Lau :=
  let l := { l with events := l.events ||| 4 }
  match part with
  | .acc => { l with stat := l.stat ||| 16 }
  | .snap => { l with snap := l.snap ||| ((1 : LauImage) <<< (4352 + 4)) }
  | .bank => { l with bankStat := l.bankStat ||| 16 }

/-- In GUARDED mode the two halves of the tree are compared at the root: where they differ, POISON is set in A and UCC 0x12
is reported (R169). Which value the root then takes is not stated: it is free. (DESIGN CHOICE, log 34) -/
def halvesDiffer (ch : Chan) : Chan :=
  reportUccEvent { ch with lau := poisonLauter ch.lau .acc, free := ch.free + 1 } 0x12 0 0

/-- The oldest global OR reaches the controller, 24 micro-cycles after its request (R20, R77, R162): bit RTAG of LAUTER_GOR
takes it. `differ` says that the two halves of the tree of GUARDED mode differ. While no op counts micro-cycles, they pass
as they may. (DESIGN CHOICE, log 3) -/
def gorValid (differ : Bool) (ch : Chan) : Chan :=
  if chanRunning ch = false then ch
  else
    match ch.lau.gors with
    | [] => ch
    | g :: rest =>
      if g.age < 24 ∧ ch.seq.cur.isSome then ch
      else
        let m : BitVec 64 := BitVec.ofNat 64 (2 ^ g.tag.toNat)
        let differ := differ && guarded ch
        let val := if differ then Config.freeBit ch.free else g.val
        let ch := if differ then halvesDiffer ch else ch
        let ch := if comparing ch then pushCopy ch (.gor g.tag val) else ch
        { ch with lau := { ch.lau with
          gor := if val then ch.lau.gor ||| m else ch.lau.gor &&& ~~~m, gors := rest } }

/-- GOR_VALID (R77). -/
def execGorValid (c : Ch) (differ : Bool) (s : State) : Host.Outcome State Fault Refusal := onChan c (gorValid differ) s

/-! ### Root effects in order (R155) -/

/-- The oldest root effect may take place: 36 micro-cycles have passed since its word, or no op counts them (R155).
(DESIGN CHOICE, log 3) -/
def rootDue (ch : Chan) (r : RootReq) : Bool := chanRunning ch && (decide (36 ≤ r.age) || ch.seq.cur.isNone)

/-- The micro-cycles after its root effect at which a result is visible: a SNAP 38 after its word, a ROUND 48 (R161). -/
def shownAfter : RootOp → Nat
  | .snap _ _ => 2
  | .round _ _ _ _ _ => 12
  | _ => 0

/-- The result of a root effect starts on its way to the controller, while an op counts the micro-cycles (R161).
(DESIGN CHOICE, log 3) -/
def startShown (ch : Chan) (r : RootReq) (l : Lau) : Lau :=
  if ch.seq.cur.isSome ∧ shownAfter r.op ≠ 0 then { l with shown := l.shown ++ [(r.tag, shownAfter r.op)] } else l

/-- What the members of a pair compare of the root after a root effect. -/
def rootCopy (l : Lau) : RootCopy where
  la := l.la
  stat := l.stat
  snap := l.snap
  lres := l.lres
  lround := l.lround
  bank := l.bank
  bankStat := l.bankStat
  rxCount := l.rxCount
  events := l.events

/-- The members of a pair compare every root effect (R169). -/
def pushRoot (ch : Chan) (l : Lau) : Chan := if comparing ch then pushCopy ch (.root (rootCopy l)) else ch

/-- The next root effect takes place, if it is one that `f` performs. -/
def rootStep (f : RootOp → Lau → Option Lau) (ch : Chan) : Chan :=
  match ch.lau.roots with
  | [] => ch
  | r :: rest =>
    if rootDue ch r = false then ch
    else
      match f r.op ch.lau with
      | none => ch
      | some l => { pushRoot ch l with lau := startShown ch r { l with roots := rest } }

/-- The next root effect is a count that may be added. -/
def countDue (ch : Chan) : Bool :=
  match ch.lau.roots with
  | r :: _ => rootDue ch r && (match r.op with | .count _ => true | _ => false)
  | [] => false

/-- A count is added (R152, R153). `differ` says that the two halves of the tree of GUARDED mode differ. -/
def rootCountAdd (differ : Bool) (ch : Chan) : Chan :=
  let differ := differ && guarded ch && countDue ch
  let free := Config.freeAcc ch.free
  rootStep (fun op l =>
    match op with
    | .count v => some { l with la := l.la + (if differ then free else v) }
    | _ => none) (if differ then halvesDiffer ch else ch)

/-- ROOT_COUNT_ADD (R153). -/
def execRootCountAdd (c : Ch) (differ : Bool) (s : State) : Host.Outcome State Fault Refusal :=
  onChan c (rootCountAdd differ) s

/-- CLEAR: A and status are 0; LPOS and LSTEP changed at the sequencer (R154). -/
def rootClear : RootOp → Lau → Option Lau
  | .clear, l => some { l with la := 0, stat := 0 }
  | _, _ => none

/-- ROOT_CLEAR (R154). -/
def execRootClear (c : Ch) (s : State) : Host.Outcome State Fault Refusal := onChan c (rootStep rootClear) s

/-- SFLAG: status bits NAN, SNAN, PINF and NINF are ORed (R154). -/
def rootSflag : RootOp → Lau → Option Lau
  | .sflag f, l => some { l with stat := l.stat ||| f.setWidth 5 }
  | _, _ => none

/-- ROOT_SFLAG (R154). -/
def execRootSflag (c : Ch) (s : State) : Host.Outcome State Fault Refusal := onChan c (rootStep rootSflag) s

/-! ### Images (06, Images) -/

/-- Cell `k` of an image. -/
def imageCell (m : LauImage) (k : Nat) : Word := m.extractLsb' (32 * k) 32

/-- The image of LA: cells 0 to 135 are A, then status, address and image number, LPOS and LSTEP. -/
def makeImage (l : Lau) (own number : Half) (lpos : BitVec 13) (lstep : BitVec 2) : LauImage :=
  l.la.setWidth 4480 ||| (l.stat.setWidth 4480 <<< 4352) ||| (own.setWidth 4480 <<< 4384)
    ||| (number.setWidth 4480 <<< 4400) ||| (lpos.setWidth 4480 <<< 4416) ||| (lstep.setWidth 4480 <<< 4429)

/-- The integer of an image. -/
def imageAcc (m : LauImage) : Acc := m.setWidth 4352

/-- The status bits of an image. -/
def imageStat (m : LauImage) : BitVec 5 := m.extractLsb' 4352 5

/-- LAUTER_STAT.POISONED is set when POISON becomes set in a structure (R169, LAUTER_STAT card). (DEDUCED, log 35) -/
def notePoison (old new : BitVec 5) (l : Lau) : Lau :=
  if bit new 4 && !bit old 4 then { l with events := l.events ||| 4 } else l

/-- SNAP: the snapshot is the image of LA, with image number 0 (R154). -/
def rootSnap (own : Half) : RootOp → Lau → Option Lau
  | .snap p st, l => some (notePoison (imageStat l.snap) l.stat { l with snap := makeImage l own 0 p st })
  | _, _ => none

/-- ROOT_SNAP (R154). -/
def execRootSnap (c : Ch) (s : State) : Host.Outcome State Fault Refusal :=
  onChan c (fun ch => rootStep (rootSnap ch.keg.addr) ch) s

/-- LOAD: A and status from cells 0 to 136 of the snapshot (R154). -/
def rootLoad : RootOp → Lau → Option Lau
  | .load, l => some (notePoison l.stat (imageStat l.snap) { l with la := imageAcc l.snap, stat := imageStat l.snap })
  | _, _ => none

/-- ROOT_LOAD (R154). -/
def execRootLoad (c : Ch) (s : State) : Host.Outcome State Fault Refusal := onChan c (rootStep rootLoad) s

/-- MERGE: the receive bank is added into A and emptied; with COUNT below LRX_EXPECT, EARLY is set (R154, R167). -/
def rootMerge : RootOp → Lau → Option Lau
  | .merge, l =>
    some (notePoison l.stat (l.stat ||| l.bankStat) { l with
      la := l.la + l.bank, stat := l.stat ||| l.bankStat, bank := 0, bankStat := 0, rxCount := 0
      events := if l.rxCount.toNat < l.expect.toNat then l.events ||| 2 else l.events })
  | _, _ => none

/-- ROOT_MERGE (R154). -/
def execRootMerge (c : Ch) (s : State) : Host.Outcome State Fault Refusal := onChan c (rootStep rootMerge) s

/-- An image arrives in the receive bank: added modulo 2^4,352, its status ORed, COUNT incremented, which stops at
65,535; LAUTER_RX is raised when COUNT reaches LRX_EXPECT (R165, R197). (DEDUCED, log 35) -/
def bankAdd (ch : Chan) (m : LauImage) : Chan :=
  let l := ch.lau
  let n := satInc16 l.rxCount 1
  let st := l.bankStat ||| imageStat m
  let ch' := { ch with lau := notePoison l.bankStat st { l with bank := l.bank + imageAcc m, bankStat := st, rxCount := n } }
  if l.rxCount.toNat < l.expect.toNat ∧ l.expect.toNat ≤ n.toNat then raiseLine ch' 2 else ch'

/-! ### XSEND (R164, R329) -/

/-- The image as bytes, 560 of them. -/
def imageBytes (m : LauImage) : List Byte := natBytes 560 m.toNat

/-- The valid destinations, in ascending entry order. -/
def xTargets (l : Lau) : List Half := (l.xdest.toList.filter fun d => bit d 16).map fun d => d.extractLsb' 0 16

/-- Send one image: to the channel itself locally, to any other as an IMAGE packet whose RESPONSE is awaited. The members of
a pair compare every image (R169). -/
def sendImage (m : LauImage) (number : Half) (ch : Chan) (dest : Half) : Chan :=
  let ch := if comparing ch then pushCopy ch (.image dest m) else ch
  if dest = ch.keg.addr then bankAdd ch m
  else
    let tag := 0x800 + number.toNat % 2048
    let ch := { ch with rack := { ch.rack with xtags := ch.rack.xtags ++ [(tag, dest)] } }
    inject ch
      { hdr := mkHeader ch.keg 3 9 false dest tag 0 560 0 0 0 0, flits := payload 9 (imageBytes m) }

/-- XSEND: with no valid entry XNONE is set and no image is made (R164). -/
def rootXsend (ch : Chan) : Chan :=
  match ch.lau.roots with
  | ⟨tag, .xsend p st, age⟩ :: rest =>
    if rootDue ch ⟨tag, .xsend p st, age⟩ = false then ch
    else
      let empty := xTargets ch.lau = []
      let n := ch.lau.imageNo + 1
      let l := { ch.lau with
        roots := rest, events := if empty then ch.lau.events ||| 1 else ch.lau.events
        imageNo := if empty then ch.lau.imageNo else n }
      let m := makeImage ch.lau ch.keg.addr n p st
      (xTargets l).foldl (sendImage m n) { pushRoot ch l with lau := l }
  | _ => ch

/-- ROOT_XSEND (R164). -/
def execRootXsend (c : Ch) (s : State) : Host.Outcome State Fault Refusal := onChan c rootXsend s

/-! ### LROUND (R168) -/

/-- A floating flag mask of R130 as LROUND_STAT bits NV, OF, UF, NX. -/
def lroundFlags (f : FFlags) : BitVec 6 :=
  BitVec.ofNat 6 (b2n (bit f 0) + 2 * b2n (bit f 2) + 4 * b2n (bit f 3) + 8 * b2n (bit f 4))

/-- The largest or smallest value of an integer or fixed-point range. -/
def rangeEnd (a : Word) (low : Bool) : Int := if low then rangeLo a else rangeHi a

/-- LROUND of a value A × 2^−2,176 with status under a descriptor and a draw: the result and LROUND_STAT. -/
def lroundOf (acc : Int) (stat : BitVec 5) (a b : Word) (draw : Nat) : Nat × BitVec 6 :=
  let isF := decide (dKind a = 2)
  let q := descFmt a b draw
  let nanBad := bit stat 1 || (bit stat 2 && bit stat 3)
  if bit stat 4 then (if isF then fNan q else 0, 16)
  else if nanBad then (if isF then fNan q else 0, 1)
  else if bit stat 0 then (if isF then fNan q else 0, if isF then 0 else 1)
  else if bit stat 2 || bit stat 3 then
    if isF then (fInf q (bit stat 3), 0) else (uval (dWidth a) (rangeEnd a (bit stat 3)), 1)
  else if isF then
    let r := fDeliver q (decide (acc < 0)) acc.natAbs (-2176) false false
    (r.1, lroundFlags r.2)
  else
    let r := fToFixed (dRound a) draw (decide (acc < 0)) acc.natAbs (-2176) (dFbits a)
    let d := deliverInt a r.1
    (d.1, lroundFlags (d.2 ||| (if r.2 then fNX else 0)))

/-- ROUND of LA into LRES and LROUND_STAT. Under SR the draw is R140's with coordinate 0. A routine that uses no descriptor
sets NODESC alone, whatever the status of LA. (DEDUCED, log 35) -/
def rootRound : RootOp → Lau → Option Lau
  | .round uses a b seed n, l =>
    if uses then
      let r := lroundOf l.la.toInt l.stat a b (drawBits seed 0 n).toNat
      some { l with lres := BitVec.ofNat 256 r.1, lround := r.2 }
    else some { l with lres := 0, lround := 32 }
  | _, _ => none

/-- ROOT_ROUND (R168). -/
def execRootRound (c : Ch) (s : State) : Host.Outcome State Fault Refusal := onChan c (rootStep rootRound) s

/-- The image that a packet carries. -/
def packetImage (p : Packet) : LauImage :=
  BitVec.ofNat 4480 (bytesNat ((p.flits.flatMap fun f => natBytes 64 f.toNat).take 560))

end Sys2Proof.Machine
end

