-- ==== Sys2Proof/Machine/MemEvents.lean ====
section
/-! DEFINITION. Soft errors, write-backs, retention and sparge (R59, R83, R240, R244 to R256). -/

namespace Sys2Proof.Machine

/-! ### Soft errors -/

/-- Mark a word of IMEM or DMEM. (DESIGN CHOICE, log 14) -/
def strikeMem (ms : List MemMark) (word : Nat) (ue : Bool) : List MemMark :=
  let worse := ue || ms.any fun m => decide (m.word = word)
  { word := word, ue := worse, pend := false } :: markClear ms word

/-- An upset strikes a memory of the channel. One that strikes a lauter structure is found at once: a single-bit error
is corrected and reported, CE 0x11; a double-bit one sets POISON in that structure and is reported, UCC 0x12 (R169,
R394). (DESIGN CHOICE, log 13) -/
def strike (ch : Chan) (u : Upset) : Chan :=
  match u with
  | .plane p w ue =>
    let same := fun (m : PlaneMark) => decide (m.plane = p ∧ m.word = w)
    { ch with arr := { ch.arr with
      marks := { plane := p, word := w, ue := ue || ch.arr.marks.any same } :: ch.arr.marks.filter fun m => !same m } }
  | .ustore t a flips =>
    let same := fun (m : UstoreMark) => decide (m.tun = t ∧ m.addr = a)
    let all := flips ^^^ ((ch.seq.umarks.find? same).map (·.flips)).getD 0
    { ch with seq := { ch.seq with
      umarks := (if all = 0 then [] else [{ tun := t, addr := a, flips := all }]) ++ ch.seq.umarks.filter fun m => !same m } }
  | .imem w ue => { ch with mem := { ch.mem with imarks := strikeMem ch.mem.imarks w ue } }
  | .dmem w ue => { ch with mem := { ch.mem with dmarks := strikeMem ch.mem.dmarks w ue } }
  | .hbm b ue =>
    { ch with hbm := { ch.hbm with
      marks := { block := b, ue := ue || ch.hbm.marks.any fun m => decide (m.block = b) && m.ue }
        :: ch.hbm.marks.filter fun m => decide (m.block ≠ b) } }
  | .lauter part ue =>
    if ue then reportUccEvent { ch with lau := poisonLauter ch.lau part } 0x12 0 0 else report ch .ce 0x11 0 0

/-! ### MEM_CE_WRITEBACK, IMEM_WAIT_LIMIT -/

/-- The corrected value of a word is written back, in both copies of a borrowed region, while the memory is clocked and not
in retention (R240, R244, R248). -/
def memWriteback (imem : Bool) (word : Nat) (ch : Chan) : Chan :=
  let waits := fun (m : MemMark) => decide (m.word = word) && m.pend && !m.ue
  let keep := fun (ms : List MemMark) => ms.filter fun m => !waits m
  let note := fun (ms : List MemMark) (x : SpargeMem) =>
    if ms.any waits then noteCell x (word / 64) (word % 64) .same else x
  if memoriesClocked ch = false then ch
  else if imem then
    { ch with mem := { ch.mem with imarks := keep ch.mem.imarks, spI := note ch.mem.imarks ch.mem.spI } }
  else { ch with mem := { ch.mem with dmarks := keep ch.mem.dmarks, spD := note ch.mem.dmarks ch.mem.spD } }

/-- MEM_CE_WRITEBACK (R240). -/
def execMemCeWriteback (c : Ch) (imem : Bool) (word : Nat) (s : State) : Host.Outcome State Fault Refusal :=
  onChan c (memWriteback imem word) s

/-- Source and destination space of an entry. -/
def eSrc (e : Entry) : Nat := fld (e.cells.getD 6 0) 0 4
def eDst (e : Entry) : Nat := fld (e.cells.getD 6 0) 4 4

/-- A transfer that has not finished and reads or writes IMEM. -/
def usesImem (e : Entry) : Bool :=
  decide (eSrc e = 3 ∨ eDst e = 3) &&
    (match e.state with
    | .reading => false
    | .finished _ _ _ => false
    | _ => true)

/-- A racking access to IMEM has waited 1,048,576 cycles: IMEM_WAIT is set (R234). -/
def imemWaitLimit (ch : Chan) : Chan :=
  if ch.rack.entries.any usesImem && chanRunning ch then { ch with mem := { ch.mem with imemWait := true } } else ch

/-- IMEM_WAIT_LIMIT (R234). -/
def execImemWaitLimit (c : Ch) (s : State) : Host.Outcome State Fault Refusal := onChan c imemWaitLimit s

/-! ### Plane retention (R245, R246) -/

/-- The entry moves planes of this channel and is not complete; one that only waits to be posted is. -/
def usesPlanes (e : Entry) : Bool :=
  decide (eSrc e = 4 ∨ eDst e = 4) &&
    (match e.state with
    | .finished _ _ _ => false
    | _ => true)

/-- The conditions under which a write of 1 to PLANE_RET takes effect (R245). An inbound plane write is a transfer to plane
memory too, until it is visible. -/
def retReady (ch : Chan) : Bool :=
  decide (ch.seq.queue = []) && ch.seq.cur.isNone && ch.trap.drain.isNone && decide (ch.arr.staging = [])
    && !ch.rack.entries.any usesPlanes && decide (ch.rack.held = [])

/-- A write of MEM_RET_CTL that takes effect. -/
def writeRet (ch : Chan) (on : Bool) : Chan :=
  if on then { ch with mem := { ch.mem with planeRet := true, waking := false } }
  else if ch.mem.planeRet then { ch with mem := { ch.mem with planeRet := false, waking := true } }
  else ch

/-- PLANE_RET_SET: takes effect only while its conditions hold (R245). -/
def execPlaneRetSet (c : Ch) (s : State) : Host.Outcome State Fault Refusal :=
  onChan c (whileRunning fun ch => if retReady ch then writeRet ch true else ch) s

/-- PLANE_RET_CLEAR (R246). -/
def execPlaneRetClear (c : Ch) (s : State) : Host.Outcome State Fault Refusal :=
  onChan c (whileRunning fun ch => writeRet ch false) s

/-! ### Sparge. Memory 0 is DMEM, 1 IMEM, 2 plane memory. -/

/-- The sparge state of a memory. -/
def spOf (ch : Chan) (mem : Nat) : SpargeMem :=
  match mem with
  | 0 => ch.mem.spD
  | 1 => ch.mem.spI
  | _ => ch.mem.spP

/-- Replace it. -/
def setSp (ch : Chan) (mem : Nat) (x : SpargeMem) : Chan :=
  match mem with
  | 0 => { ch with mem := { ch.mem with spD := x } }
  | 1 => { ch with mem := { ch.mem with spI := x } }
  | _ => { ch with mem := { ch.mem with spP := x } }

/-- Sparge may work on a memory: the channel is in RUN or IDLE and not frozen, and the memory is not in retention and
has not been taken out of testing (R244, R251, R409). (DESIGN CHOICE, log 40) -/
def spargeAllowed (ch : Chan) (mem : Nat) : Bool :=
  memoriesClocked ch &&
    (match mem with
    | 0 => !ch.mem.outD
    | 1 => !ch.mem.outI
    | _ => !ch.mem.planeRet)

/-- The regions of a memory (R247). (DEDUCED, log 38) -/
def regionCount (mem : Nat) : Nat :=
  match mem with
  | 0 => 4096
  | 1 => 2048
  | _ => 4608

/-- No word of the spare holds a copy. -/
def noCopy : Vector SpareCell 64 := Vector.replicate 64 .old

/-- Borrow a region (R247). (DESIGN CHOICE, log 40) -/
def regionStart (mem : Nat) (r : BitVec 13) (ch : Chan) : Chan :=
  if spargeAllowed ch mem && decide ((spOf ch mem).phase = 0) && decide (r.toNat < regionCount mem) then
    setSp ch mem { spOf ch mem with phase := 1, region := r, done := 0, other := noCopy, found := [] }
  else ch

/-- SPARGE_REGION_START (R247). -/
def execSpargeRegionStart (c : Ch) (mem : Fin 3) (r : BitVec 13) (s : State) : Host.Outcome State Fault Refusal :=
  onChan c (regionStart mem.val r) s

/-- Abandon a region, or leave it on its spare. -/
def endRegion (ch : Chan) (mem : Nat) : Chan :=
  setSp ch mem { spOf ch mem with phase := 0, done := 0, other := noCopy, found := [] }

/-- The plane code words of tun plane `p` at physical tun position `u`; none when the position is not in service. -/
def physWords (ch : Chan) (u : Nat) : List Nat := if inService ch u then tunWords (logicalTun ch u) else []

/-- A COPY step on word or plane number `k` of the region (R252): a single-bit error is handled under R240 or R55, and
an uncorrectable one abandons the region, UCC 0x0C with MCHK EVENT. The answer says whether the region goes on. -/
def copyStep (ch : Chan) (mem region k : Nat) : Chan × Bool :=
  match mem with
  | 0 =>
    let w := 64 * region + k
    if markUe ch.mem.dmarks w then
      (reportUccEvent ch 0x0C (BitVec.ofNat 8 (w % 16)) (BitVec.ofNat 32 (4 * w)), false)
    else (dmemCheck ch w, true)
  | 1 =>
    let w := 64 * region + k
    if markUe ch.mem.imarks w then (reportUccEvent ch 0x0C 0 (BitVec.ofNat 32 (4 * w)), false)
    else (imemCheck ch w, true)
  | _ =>
    let p := 64 * (region % 64) + k
    let ws := physWords ch (region / 64)
    let ch := readWordCes ch p ws
    match (planeUes ch p).find? (· ∈ ws) with
    | some w => (reportUccEvent ch 0x0C (wordUnit ch w) (BitVec.ofNat 32 p), false)
    | none => (ch, true)

/-- The operations of one TEST: two passes of 10 operations on each of 64 words or tun planes (R250). -/
def testOps : Nat := 1280

/-- Operation `j` of a TEST (R250): March C− with the elements w0; r0, w1; r1, w0 upward, r0, w1; r1, w0 downward, and r0,
first with a solid and then with a checkerboard background. The answer is the word or plane, whether it is a read, and
the element, 0 or 1. (PRESUMED, log 122) -/
def marchOp (j : Nat) : Nat × Bool × Bool :=
  let i := j % 640
  let pair := (i - 64) % 128
  let up := decide (i < 320)
  let k := if i < 64 then i else if i ≥ 576 then i - 576 else if up then pair / 2 else 63 - pair / 2
  let first := decide (pair % 2 = 0)
  let oneFirst := decide ((i - 64) / 128 % 2 = 1)
  if i < 64 then (k, false, false)
  else if i ≥ 576 then (k, true, false)
  else (k, first, if first then oneFirst else !oneFirst)

/-- One operation of TEST on the original: a write of the march pattern, or a read that is compared with it without ECC.
`fails` are the columns in which the read differs. (DESIGN CHOICE, log 37) -/
def testStep (x : SpargeMem) (fails : List Nat) : SpargeMem :=
  let o := marchOp x.done
  let x' := if o.2.1 then { x with found := (x.found ++ fails).eraseDups }
    else setCell x o.1 (.march (decide (x.done ≥ 640)) o.2.2)
  { x' with done := x.done + 1 }

/-- The words of a region, or its tun planes as plane and code word. -/
def inSpargeRegion (ch : Chan) (mem region : Nat) (plane word : Nat) : Bool :=
  match mem with
  | 0 => decide (word / 64 = region)
  | 1 => decide (word / 64 = region)
  | _ => decide (plane / 64 = region % 64) && decide (word ∈ physWords ch (region / 64))

/-- At SWITCH the spare, which holds corrected data and fresh check bits, takes all accesses: soft errors of the original no
longer meet a read. -/
def switchCopy (ch : Chan) (mem : Nat) : Chan :=
  let r := (spOf ch mem).region.toNat
  match mem with
  | 0 => { ch with mem := { ch.mem with dmarks := ch.mem.dmarks.filter fun m => !inSpargeRegion ch 0 r 0 m.word } }
  | 1 => { ch with mem := { ch.mem with imarks := ch.mem.imarks.filter fun m => !inSpargeRegion ch 1 r 0 m.word } }
  | _ =>
    { ch with arr := { ch.arr with
      marks := ch.arr.marks.filter fun m => !inSpargeRegion ch 2 r m.plane m.word
      writeback := ch.arr.writeback.filter fun x => !inSpargeRegion ch 2 r x.1 x.2 } }

/-- A RESTORE step on word or plane number `k`: the read from the spare is checked; a single-bit error is handled under R240
or R55, and an uncorrectable word is reported, UCC 0x0A or 0x02 (R394). -/
def restoreRead (ch : Chan) (mem region k : Nat) : Chan :=
  let w := 64 * region + k
  match mem with
  | 0 => if markUe ch.mem.dmarks w then reportDmemUe ch (4 * w) else dmemCheck ch w
  | 1 => if markUe ch.mem.imarks w then report ch .ucc 0x0A 0 (BitVec.ofNat 32 (4 * w)) else imemCheck ch w
  | _ =>
    let p := 64 * (region % 64) + k
    let ws := physWords ch (region / 64)
    let ch := readWordCes ch p ws
    ((planeUes ch p).filter (· ∈ ws)).foldl (fun ch w => reportPlaneUe ch p w) ch

/-- The step restores the word or plane: both copies then hold the same. -/
def restoreStep (mem : Nat) (ch : Chan) (k : Nat) : Chan :=
  let ch := restoreRead ch mem (spOf ch mem).region.toNat k
  setSp ch mem (setCell (spOf ch mem) k .same)

/-- RELEASE: the original takes all accesses. It holds corrected data with fresh check bits, so single-bit errors of the
spare no longer meet a read. -/
def releaseRegion (ch : Chan) (mem : Nat) : Chan :=
  let r := (spOf ch mem).region.toNat
  let ch := endRegion ch mem
  match mem with
  | 0 => { ch with mem := { ch.mem with dmarks := ch.mem.dmarks.filter fun m => m.ue || !inSpargeRegion ch 0 r 0 m.word } }
  | 1 => { ch with mem := { ch.mem with imarks := ch.mem.imarks.filter fun m => m.ue || !inSpargeRegion ch 1 r 0 m.word } }
  | _ =>
    { ch with arr := { ch.arr with
      marks := ch.arr.marks.filter fun m => m.ue || !inSpargeRegion ch 2 r m.plane m.word
      writeback := ch.arr.writeback.filter fun x => !inSpargeRegion ch 2 r x.1 x.2 } }

/-- A physical tun cannot stay in service: one in service is fenced and replaced, and an unused spare is marked
unusable (R59, R251, R255). -/
def loseTun (ch : Chan) (u : Nat) : Chan × Bool :=
  let out := (ch.arr.tunMap.toList.getD (u / 9) 8).toNat
  if u % 9 = out then
    (if out = 8 then { ch with arr := { ch.arr with spareBad := ch.arr.spareBad ||| BitVec.ofNat 8 (2 ^ (u / 9)) } }
      else ch, false)
  else repairTun ch (u / 9) (u % 9)

/-- Spare columns and repair spares of a physical tun. -/
def colsUsed (ch : Chan) (u : Nat) : Nat := ch.arr.spareCols.toList.getD u 0
def planeSparesUsed (ch : Chan) (u : Nat) : Nat := ch.mem.usedP.toList.getD u 0

/-- A failing column of a tun is mapped to the next spare column, CE 0x03; a fifth one costs the tun (R59). -/
def repairColumn (ch : Chan) (u : Nat) : Chan × Bool :=
  if colsUsed ch u ≥ 4 then loseTun ch u
  else
    (report { ch with arr := { ch.arr with
      spareCols := Vector.ofFn fun i : Fin 72 => if i.val = u then colsUsed ch u + 1 else ch.arr.spareCols[i] } }
      .ce 0x03 (BitVec.ofNat 8 u) 0, false)

/-- A corrected code word is written back; the plane ECC logic may find in it that its tun has a failing column, which is
then repaired in the background: the spec does not say when the logic finds one. (DESIGN CHOICE, log 114) -/
def writebackFinds (tun : Nat) (column : Bool) (ch : Chan) : Chan × Bool :=
  let ch' := planeCeWriteback tun ch
  if column && planeFree ch tun && backPending ch tun then
    repairColumn ch' (9 * (tun / 8) + physPos ch (tun / 8) (tun % 8))
  else (ch', false)

/-- PLANE_CE_WRITEBACK (R55, R59). -/
def execPlaneCeWriteback (c : Ch) (tun : Fin 64) (column : Bool) (s : State) : Host.Outcome State Fault Refusal :=
  onBoth c (fun ch h =>
    let r := writebackFinds tun.val column ch
    (r.1, recordRepairs c r.1 (holdFence c r.2 h))) s

/-- The working spare becomes a region's permanent home, CE 0x0B; with no repair spare left, testing of DMEM or IMEM
stops, and a tun is replaced (R251). -/
def keepSpare (ch : Chan) (mem region : Nat) : Chan × Bool :=
  match mem with
  | 0 =>
    let ch := report ch .ce 0x0B (BitVec.ofNat 8 0) (BitVec.ofNat 32 (256 * region))
    (if ch.mem.usedD ≥ 16 then { ch with mem := { ch.mem with outD := true } }
      else { ch with mem := { ch.mem with usedD := ch.mem.usedD + 1 } }, false)
  | 1 =>
    let ch := report ch .ce 0x0B 0 (BitVec.ofNat 32 (256 * region))
    (if ch.mem.usedI ≥ 8 then { ch with mem := { ch.mem with outI := true } }
      else { ch with mem := { ch.mem with usedI := ch.mem.usedI + 1 } }, false)
  | _ =>
    let u := region / 64
    let ch := report ch .ce 0x0B (BitVec.ofNat 8 u) (BitVec.ofNat 32 (64 * (region % 64)))
    if planeSparesUsed ch u ≥ 2 then loseTun ch u
    else
      ({ ch with mem := { ch.mem with
        usedP := Vector.ofFn fun i : Fin 72 => if i.val = u then planeSparesUsed ch u + 1 else ch.mem.usedP[i] } }, false)

/-- The outcome of a TEST (R251): no failure; failures in one physical column of a tun, which is mapped to a spare column
before the region is tested again; or any other failure. -/
def testOutcome (ch : Chan) (mem : Nat) : Chan × Bool :=
  let x := spOf ch mem
  if x.found = [] then (setSp ch mem { x with phase := 4, done := 0 }, false)
  else if mem = 2 ∧ x.found.length = 1 then
    repairColumn (setSp ch mem { x with phase := 3, done := 0, found := [] }) (x.region.toNat / 64)
  else keepSpare (endRegion ch mem) mem x.region.toNat

/-- The word or plane that sparge's next step works on: the one that the march names in TEST, and the next in order else. -/
def spargeCell (x : SpargeMem) : Nat := if x.phase = 3 then (marchOp x.done).1 else x.done

/-- The memory leaves a cycle idle for sparge's next step: every user of R62, R232 and R236 that comes first has nothing to
do, which for DMEM is a write-back in the bank of the step's word. The owner's cycles are not counted; the command stands for
a step in one that it leaves idle (R25, R249). (DESIGN CHOICE, log 40) -/
def spargeIdle (ch : Chan) (mem : Nat) : Bool :=
  let x := spOf ch mem
  match mem with
  | 0 => !ch.mem.dmarks.any fun m => m.pend && decide (m.word % 16 = spargeCell x % 16)
  | 1 => !ch.mem.imarks.any fun m => m.pend
  | _ =>
    let u := x.region.toNat / 64
    let t := logicalTun ch u
    !inService ch u || (tunIdle ch t && !backPending ch t && !verifyPending ch t
      && !ch.arr.staging.any fun s => decide (s.tun = t) && !s.done)

/-- Sparge uses the idle micro-cycle of its tun; plane memory that wakes serves it when it is awake (R244). -/
def useSparge (ch : Chan) (mem : Nat) : Chan :=
  let u := (spOf ch mem).region.toNat / 64
  if mem ≠ 2 then ch
  else if inService ch u then useIdle (logicalTun ch u) ch
  else { ch with mem := { ch.mem with waking := false } }

/-- One sparge step (R248 to R252): COPY copies a word or plane to the spare, SWITCH hands the accesses to it, TEST marches
over the original, RESTORE copies back, RELEASE returns the accesses. (DESIGN CHOICE, log 13; DESIGN CHOICE, log 37) -/
def spargeStep (mem : Nat) (fails : List Nat) (ch : Chan) : Chan × Bool :=
  if spargeAllowed ch mem = false ∨ spargeIdle ch mem = false then (ch, false)
  else
    let ch := useSparge ch mem
    let x := spOf ch mem
    let next := fun (ch : Chan) (phase : BitVec 3) =>
      let y := spOf ch mem
      setSp ch mem (if x.done + 1 ≥ 64 then { y with phase := phase, done := 0 } else { y with done := x.done + 1 })
    match x.phase.toNat with
    | 1 =>
      let r := copyStep ch mem x.region.toNat x.done
      if r.2 then (next (setSp r.1 mem (setCell x x.done .same)) 2, false) else (endRegion r.1 mem, false)
    | 2 => (setSp (switchCopy ch mem) mem { x with phase := 3, done := 0, other := noCopy, found := [] }, false)
    | 3 =>
      let x' := testStep x fails
      if x.done + 1 ≥ testOps then testOutcome (setSp ch mem x') mem else (setSp ch mem x', false)
    | 4 => (next (restoreStep mem ch x.done) 5, false)
    | 5 => (releaseRegion ch mem, false)
    | _ => (ch, false)

/-- SPARGE_STEP (R249). The command carries the columns in which a read of TEST fails and the soft errors that
have struck. -/
def execSpargeStep (c : Ch) (mem : Fin 3) (fails : List Nat) (us : List Upset) (s : State) :
    Host.Outcome State Fault Refusal :=
  onBoth c (fun ch h =>
    let r := spargeStep mem.val fails (us.foldl strike ch)
    (r.1, recordRepairs c r.1 (holdFence c r.2 h))) s

/-- A region has waited 10 s in one phase: STARVED is set and the event reported (R253). -/
def spargeStarved (mem : Nat) (ch : Chan) : Chan :=
  if (spOf ch mem).phase = 0 then ch
  else report (setSp ch mem { spOf ch mem with starved := true }) .event 0x0D 0 0

/-- SPARGE_STARVED (R253). -/
def execSpargeStarved (c : Ch) (mem : Fin 3) (s : State) : Host.Outcome State Fault Refusal :=
  onChan c (spargeStarved mem.val) s

/-- Sparge reads one word of one sequencer's copy (R255): corrections follow R83, and an uncorrectable word costs the
tun, or the unused spare. -/
def ustoreRead (u addr : Nat) (ch : Chan) : Chan × Bool :=
  match ch.seq.umarks.find? fun m => decide (m.tun = u ∧ m.addr = addr) with
  | none => (ch, false)
  | some m =>
    if memoriesClocked ch = false then (ch, false)
    else if (hamRead (decide (addr ≥ 16384)) (ustoreWord ch addr ^^^ m.flips)).isNone then loseTun ch u
    else (correctMark ch m, false)

/-- SPARGE_USTORE_READ (R255). -/
def execSpargeUstoreRead (c : Ch) (tun : Fin 72) (addr : Nat) (s : State) : Host.Outcome State Fault Refusal :=
  onBoth c (fun ch h =>
    let r := ustoreRead tun.val addr ch
    (r.1, recordRepairs c r.1 (holdFence c r.2 h))) s

/-- Sparge at DOZE entry (R254): a region in COPY or SWITCH is abandoned, and one in TEST or RESTORE is restored, from its
first word or from where RESTORE stands, and released, in cycles that are all idle. -/
def spargeDoze (ch : Chan) : Chan :=
  [0, 1, 2].foldl (fun ch mem =>
    let x := spOf ch mem
    let rest := match x.phase.toNat with
      | 3 => List.range 64
      | 4 => (List.range 64).filter fun k => decide (x.done ≤ k)
      | _ => []
    if x.phase.toNat ≤ 2 then endRegion ch mem else releaseRegion (rest.foldl (restoreStep mem) ch) mem) ch

end Sys2Proof.Machine
end

