-- ==== Sys2Proof/Machine/Endpoint.lean ====
section
/-! DEFINITION. Submission entries: their fields, their checks, and reads and writes of the spaces that a transfer
names (R258 to R262, R264, R236 to R241, R283). -/

namespace Sys2Proof.Machine

/-! ### Fields (R260). `cs` is the sixteen cells. -/

def cellOf (cs : List Word) (k : Nat) : Word := cs.getD k 0
def cOp (cs : List Word) : Nat := fld (cellOf cs 0) 0 8
def cFlags (cs : List Word) : Nat := fld (cellOf cs 0) 8 8
def cCid (cs : List Word) : Half := (cellOf cs 0).extractLsb' 16 16
def cLen (cs : List Word) : Nat := (cellOf cs 1).toNat
def cSrcAddr (cs : List Word) : Nat := (cellOf cs 2).toNat + (cellOf cs 3).toNat * 2 ^ 32
def cDstAddr (cs : List Word) : Nat := (cellOf cs 4).toNat + (cellOf cs 5).toNat * 2 ^ 32
def cSrc (cs : List Word) : Nat := fld (cellOf cs 6) 0 4
def cDst (cs : List Word) : Nat := fld (cellOf cs 6) 4 4
def cRch (cs : List Word) : Half := (cellOf cs 6).extractLsb' 8 16
def cPattern (cs : List Word) : Word := cellOf cs 9

/-- FLAGS bit `k`. -/
def cFlag (cs : List Word) (k : Nat) : Bool := bit (cellOf cs 0) (8 + k)

/-- A plane endpoint: the fields of cells 7 and 8 (R260). -/
structure PlaneEnd where
  first : Nat
  width : Nat
  esize : Nat
  fmt   : Bool
  mfmt  : Nat
  row0  : Nat
  nrows : Nat
  col0  : Nat
  ncols : Nat
  deriving DecidableEq, Repr

/-- Cells 7 and 8 as a plane endpoint. -/
def planeEnd (c7 c8 : Word) : PlaneEnd where
  first := fld c7 0 12
  width := fld c7 12 9
  esize := fld c7 21 3
  fmt := bit c7 24
  mfmt := fld c7 25 4
  row0 := fld c8 0 10
  nrows := fld c8 10 11
  col0 := fld c8 21 4
  ncols := fld c8 25 5

/-- The element size in bytes. -/
def epSize (p : PlaneEnd) : Nat := 2 ^ p.esize

/-- The elements of the rectangle (R259). -/
def epCount (p : PlaneEnd) : Nat := p.nrows * 64 * p.ncols

/-- The word-side length (R259). -/
def epBytes (p : PlaneEnd) : Nat := epCount p * epSize p

/-- The element index of PE (row, col) (R259). -/
def epElem (p : PlaneEnd) (row col : Nat) : Nat := (row - p.row0) * (64 * p.ncols) + (col - 64 * p.col0)

/-- The PE lies in the rectangle. -/
def epIn (p : PlaneEnd) (row col : Nat) : Bool :=
  decide (p.row0 ≤ row ∧ row < p.row0 + p.nrows ∧ 64 * p.col0 ≤ col ∧ col < 64 * (p.col0 + p.ncols))

/-- A field value of the endpoint is reserved, or its cells have a reserved bit set (R260). (DEDUCED, log 45) -/
def epInvalid (c7 c8 : Word) : Bool :=
  let p := planeEnd c7 c8
  decide (fld c7 29 3 ≠ 0 ∨ fld c8 30 2 ≠ 0 ∨ p.esize > 5 ∨ p.width = 0 ∨ p.width > 256 ∨ p.nrows = 0 ∨ p.ncols = 0) || (!p.fmt && decide (p.mfmt ≠ 0))

/-- The endpoint fails the list of R259. -/
def epRange (p : PlaneEnd) : Bool :=
  decide (p.first + p.width > 3968 ∨ p.row0 + p.nrows > 1024 ∨ p.col0 + p.ncols > 16)
    || (!p.fmt && decide (8 * epSize p < p.width))

/-! ### Checks (R258, R262) -/

/-- The entry has a plane endpoint. -/
def hasPlanes (cs : List Word) : Bool :=
  decide (cDst cs = 4 ∨ cDst cs = 7) || (decide (cOp cs = 1) && decide (cSrc cs = 4))

/-- The length of the word side. -/
def wordLen (cs : List Word) : Nat :=
  if hasPlanes cs then epBytes (planeEnd (cellOf cs 7) (cellOf cs 8)) else cLen cs

/-- The combination of spaces of a COPY or FILL is not permitted (R258, R261). -/
def badSpaces (cs : List Word) : Bool :=
  let s := cSrc cs
  let d := cDst cs
  if cOp cs = 2 then decide (d > 7 ∨ d = 5)
  else
    decide (s > 5 ∨ d > 7) || decide (s = 4 ∧ (d = 4 ∨ d = 7)) || decide (s = 5 ∧ d > 2) || decide (d = 5 ∧ s > 2)
      || decide ((d = 6 ∨ d = 7) ∧ s > 2)

/-- A field that the entry does not use is not 0 (R262). -/
def badUnused (cs : List Word) : Bool :=
  let remote := decide (cDst cs = 6 ∨ cDst cs = 7)
  (decide (cOp cs = 2) && decide (cSrc cs ≠ 0 ∨ cSrcAddr cs ≠ 0))
    || (decide (cOp cs = 1) && decide (cPattern cs ≠ 0))
    || (!remote && (decide (cRch cs ≠ 0) || cFlag cs 3))
    || (hasPlanes cs && decide (cLen cs ≠ 0))
    || (decide (cOp cs = 1 ∧ cSrc cs = 4) && decide (cSrcAddr cs ≠ 0))
    || (decide (cDst cs = 4 ∨ cDst cs = 7) && decide (cDstAddr cs ≠ 0))
    || (!hasPlanes cs && decide (cellOf cs 7 ≠ 0 ∨ cellOf cs 8 ≠ 0))

/-- An address or length breaks an alignment rule of its space (R258). A DMEM range that reaches a window follows the
windows' rule; one that begins beyond them lies in no window. -/
def misaligned (space addr len : Nat) : Bool :=
  decide (space = 3 ∨ (space = 2 ∧ addr < 3 * dmemSize ∧ addr + max len 1 > dmemSize))
    && decide (addr % 4 ≠ 0 ∨ len % 4 ≠ 0)

/-- Stage 1 of R262. -/
def checkInvalid (cs : List Word) : Bool :=
  decide (cOp cs > 3 ∨ cFlags cs / 16 ≠ 0) || (cs.drop 10).any (fun w => decide (w ≠ 0))
    || (if cOp cs = 0 ∨ cOp cs = 3 then
        ((cs.drop 1).take 9).any (fun w => decide (w ≠ 0)) || cFlag cs 3
      else
        decide (fld (cellOf cs 6) 24 8 ≠ 0) || badSpaces cs || badUnused cs
          || (hasPlanes cs && epInvalid (cellOf cs 7) (cellOf cs 8))
          || (decide (cOp cs = 1) && misaligned (cSrc cs) (cSrcAddr cs) (wordLen cs))
          || misaligned (cDst cs) (cDstAddr cs) (wordLen cs))

/-- The end of a byte-addressed space; none for a space without addresses (R258). -/
def spaceEnd (space : Nat) : Option Nat :=
  match space with
  | 0 => some (2 ^ 64)
  | 1 => some (2 ^ 34)
  | 2 => some 0x300000
  | 3 => some imemSize
  | 6 => some (2 ^ 34)
  | _ => none

/-- A range lies outside its space, whatever its length (R258, R262). -/
def outside (space addr len : Nat) (source : Bool) : Bool :=
  match spaceEnd space with
  | some e => decide (addr + max len 1 > e)
  | none => decide (space = 5) && (decide (addr ≠ 0) || (if source then decide (len ≠ 560) else decide (len % 560 ≠ 0)))

/-- Stage 2 of R262. (DEDUCED, log 45) -/
def checkRange (cs : List Word) : Bool :=
  decide (cOp cs = 1 ∨ cOp cs = 2)
    && ((decide (cOp cs = 1) && outside (cSrc cs) (cSrcAddr cs) (wordLen cs) true)
      || outside (cDst cs) (cDstAddr cs) (wordLen cs) false
      || (hasPlanes cs && epRange (planeEnd (cellOf cs 7) (cellOf cs 8))))

/-- Stage 3 of R262: the Mill refuses the format. A remote endpoint is checked by its destination (R277). -/
def checkMill (m : Mill) (cs : List Word) : Bool :=
  let p := planeEnd (cellOf cs 7) (cellOf cs 8)
  decide (cOp cs = 1 ∨ cOp cs = 2) && hasPlanes cs && p.fmt && decide (cDst cs ≠ 7)
    && !fmtAccepts m p.mfmt (decide (cOp cs = 1 ∧ cSrc cs = 4)) p.width p.esize

/-- The status of an entry that a check refuses, or 0. (DEDUCED, log 41) -/
def entryCheck (m : Mill) (cs : List Word) : Byte :=
  if checkInvalid cs then 2 else if checkRange cs then 3 else if checkMill m cs then 6 else 0

/-! ### Reading a space. The answers are the channel, the bytes ahead of the first unit that failed, and the offset of
that unit from the start (R264). -/

/-- The pseudo-channel of a 32-byte block: bits [12:8] of its address (R283, R401). -/
def pseudoChan (b : Nat) : Byte := BitVec.ofNat 8 (b / 8 % 32)

/-- A row enters the repair record. One that a repair did not cure awaits another; one with no resources left stays as it
is (R284, R285). (DESIGN CHOICE, log 123) -/
def recordRow (rs : List RepairRow) (row : Nat) : List RepairRow :=
  if rs.any fun r => decide (r.row = row) then
    rs.map fun r => if r.row = row ∧ r.state = .repaired then { r with state := .pending } else r
  else rs ++ [{ row := row, state := .pending }]

/-- HBM_STAT.PPR_PENDING: rows await repair at the next start. -/
def repairPending (ch : Chan) : Bool := ch.hbm.record.any fun r => decide (r.state = .pending)

/-- A corrected HBM block is counted and reported, CE 0x0E; four corrected accesses bring its row into the repair
record (R283, R285). -/
def hbmCorrect (ch : Chan) (b : Nat) : Chan :=
  let row := Config.hbmRow b
  let n := sparseGet 0 ch.hbm.rowCes row + 1
  report { ch with hbm := { ch.hbm with
    ce := satInc ch.hbm.ce 1, rowCes := sparseSet 0 ch.hbm.rowCes row n
    record := if n ≥ 4 then recordRow ch.hbm.record row else ch.hbm.record } }
    .ce 0x0E (pseudoChan b) (BitVec.ofNat 32 b)

/-- An uncorrectable HBM block is found: counted, its row goes into the repair record, and UCC 0x0F is reported
(R285, R394). -/
def hbmFound (ch : Chan) (b : Nat) : Chan :=
  report { ch with hbm := { ch.hbm with
    ue := satInc ch.hbm.ue 1, record := recordRow ch.hbm.record (Config.hbmRow b) } }
    .ucc 0x0F (pseudoChan b) (BitVec.ofNat 32 b)

/-- The mark of a block, if it is damaged. -/
def hbmMark (ch : Chan) (b : Nat) : Option HbmMark := ch.hbm.marks.find? fun m => decide (m.block = b)

/-- The block is uncorrectable. -/
def hbmUe (ch : Chan) (b : Nat) : Bool := (hbmMark ch b).any (·.ue)

/-- The 32-byte blocks of a range. -/
def blocksOf (addr n : Nat) : List Nat :=
  if n = 0 then [] else (List.range ((addr + n - 1) / 32 - addr / 32 + 1)).map (addr / 32 + ·)

/-- The part of a list ahead of the first member with a property. -/
def aheadOf (f : Nat → Bool) (l : List Nat) : List Nat := l.takeWhile fun x => !f x

/-- Read HBM (R283, R264). -/
def readHbm (ch : Chan) (addr n : Nat) : Chan × List Byte × Option Nat :=
  let bs := blocksOf addr n
  let good := aheadOf (hbmUe ch) bs
  let ch' := (good.filter fun b => (hbmMark ch b).isSome).foldl hbmCorrect ch
  match bs.find? (hbmUe ch) with
  | none => (ch', memBytes ch.hbm.bytes addr n, none)
  | some b => (hbmFound ch' b, memBytes ch.hbm.bytes addr (32 * b - addr), some (32 * b - addr))

/-- The word-aligned pieces of a range: offset, address and size (R258). -/
def piecesOf (addr n : Nat) : List (Nat × Nat × Nat) :=
  if n = 0 then []
  else
    (List.range ((addr + n - 1) / 4 - addr / 4 + 1)).map fun k =>
      let lo := max addr (4 * (addr / 4 + k))
      let hi := min (addr + n) (4 * (addr / 4 + k) + 4)
      (lo - addr, lo, hi - lo)

/-- The DMEM word that a plain or window address names. -/
def dmemWordOf (a : Nat) : Nat := a % dmemSize / 4

/-- Read DMEM through port B; a window source reads plain words (R236, R240, R258). -/
def readDmem (ch : Chan) (addr n : Nat) : Chan × List Byte × Option Nat :=
  let ps := piecesOf addr n
  let bad := fun (p : Nat × Nat × Nat) => markUe ch.mem.dmarks (dmemWordOf p.2.1)
  let good := ps.takeWhile fun p => !bad p
  let ch' := good.foldl (fun ch p => dmemCheck ch (dmemWordOf p.2.1)) ch
  let bytes := good.flatMap fun p => memBytes ch.mem.dmem (p.2.1 % dmemSize) p.2.2
  match ps.find? bad with
  | none => (ch', bytes, none)
  | some p => (reportDmemUe ch' (4 * dmemWordOf p.2.1), bytes, some p.1)

/-- Read IMEM (R232, R240). -/
def readImem (ch : Chan) (addr n : Nat) : Chan × List Byte × Option Nat :=
  let ps := piecesOf addr n
  let bad := fun (p : Nat × Nat × Nat) => markUe ch.mem.imarks (p.2.1 / 4)
  let good := ps.takeWhile fun p => !bad p
  let ch' := good.foldl (fun ch p => imemCheck ch (p.2.1 / 4)) ch
  let bytes := good.flatMap fun p => memBytes ch.mem.imem p.2.1 p.2.2
  match ps.find? bad with
  | none => (ch', bytes, none)
  | some p => (report ch' .ucc 0x0A 0 (BitVec.ofNat 32 (4 * (p.2.1 / 4))), bytes, some p.1)

/-- Read a space of this channel: 1 HBM, 2 DMEM, 3 IMEM, 5 the snapshot (R258). -/
def readSpace (ch : Chan) (space addr n : Nat) : Chan × List Byte × Option Nat :=
  match space with
  | 1 => readHbm ch addr n
  | 2 => readDmem ch addr n
  | 3 => readImem ch addr n
  | _ => (ch, (imageBytes ch.lau.snap).take n, none)

/-! ### Writing a space -/

/-- The bytes of a word that a mask selects. -/
def maskWord (m : BitVec 4) : Word :=
  (if bit m 0 then 0xFF#32 else 0) ||| (if bit m 1 then 0xFF00#32 else 0) ||| (if bit m 2 then 0xFF0000#32 else 0)
    ||| (if bit m 3 then 0xFF000000#32 else 0)

/-- One DMEM write through port B: a plain write of the bytes of `mask`, or a window operation, in which the 1 bits of the
data set or clear bits of the word and change no other (R177, R236, R239, R240, R241). The answer says whether the word was
written; a write of part of an uncorrectable word, or a window operation on it, writes nothing. -/
def putDmem (ch : Chan) (word : Nat) (x : Word) (mask : BitVec 4) (win : Nat) : Chan × Bool :=
  if win = 0 ∧ mask = 15 then (dmemWrite ch (4 * word) x, true)
  else if markUe ch.mem.dmarks word then (ch, false)
  else
    let old := memWord ch.mem.dmem (4 * word)
    let new := match win with
      | 0 => (old &&& ~~~(maskWord mask)) ||| (x &&& maskWord mask)
      | 1 => old ||| x
      | _ => old &&& ~~~x
    (dmemWrite (dmemCheck ch word) (4 * word) new, true)

/-- A piece of a racking write to DMEM as one word access. -/
def lostOf (off addr size : Nat) (bs : List Byte) : LostWrite where
  word := dmemWordOf addr
  data := BitVec.ofNat 32 (bytesNat bs * 2 ^ (8 * (addr % 4)))
  mask := BitVec.ofNat 4 ((2 ^ size - 1) * 2 ^ (addr % 4))
  win := addr / dmemSize
  off := off

/-- DMEM_LOST.RACK counts a word that stays dropped (R238). -/
def loseRack (ch : Chan) : Chan := { ch with mem := { ch.mem with lostRack := satInc16 ch.mem.lostRack 1 } }

/-- What a racking write to a byte-addressed space leaves: the channel, the words to retry, whether one stayed dropped,
and the offset of the unit that could not be written. -/
structure WriteRes where
  ch    : Chan
  retry : List LostWrite
  lost  : Bool
  fail  : Option Nat

/-- Write DMEM: a word in `clash` meets a port A write that makes it drop (R237, R238). -/
def writeDmem (retry : Bool) (clash : List Nat) (off addr : Nat) (bs : List Byte) (r : WriteRes) : WriteRes :=
  (piecesOf addr bs.length).foldl (fun r p =>
    if r.fail.isSome then r
    else
      let w := lostOf (off + p.1) p.2.1 p.2.2 ((bs.drop p.1).take p.2.2)
      if w.word ∈ clash then
        (if retry then { r with retry := r.retry ++ [w] } else { r with ch := loseRack r.ch, lost := true })
      else
        let d := putDmem r.ch w.word w.data w.mask w.win
        if d.2 then { r with ch := d.1 }
        else { r with ch := reportDmemUe r.ch (4 * w.word), fail := some w.off }) r

/-- Write HBM block by block: a part of an uncorrectable block is not written (R283). -/
def writeHbm (off addr : Nat) (bs : List Byte) (r : WriteRes) : WriteRes :=
  (blocksOf addr bs.length).foldl (fun r b =>
    let lo := max addr (32 * b)
    let hi := min (addr + bs.length) (32 * b + 32)
    if r.fail.isSome then r
    else if hi - lo < 32 ∧ hbmUe r.ch b = true then
      { r with ch := hbmFound r.ch b, fail := some (off + (lo - addr)) }
    else
      let ch := if hi - lo < 32 ∧ (hbmMark r.ch b).isSome = true then hbmCorrect r.ch b else r.ch
      { r with ch := { ch with hbm := { ch.hbm with
        bytes := memSetBytes ch.hbm.bytes lo ((bs.drop (lo - addr)).take (hi - lo))
        marks := ch.hbm.marks.filter fun m => decide (m.block ≠ b) } } }) r

/-- Write IMEM: whole words, in both copies of a borrowed region; the fetch buffer keeps what it holds (R233, R241, R248). -/
def writeImem (addr : Nat) (bs : List Byte) (r : WriteRes) : WriteRes :=
  { r with ch := { r.ch with mem := { r.ch.mem with
    imem := memSetBytes r.ch.mem.imem addr bs
    spI := (List.range (bs.length / 4)).foldl (fun x i =>
      noteCell x ((addr / 4 + i) / 64) ((addr / 4 + i) % 64) .same) r.ch.mem.spI
    imarks := r.ch.mem.imarks.filter fun m => !decide (addr / 4 ≤ m.word ∧ m.word < (addr + bs.length) / 4) } } }

/-- Add whole images to the receive bank (R165, R258). -/
def writeImages : Nat → List Byte → Chan → Chan
  | 0, _, ch => ch
  | n + 1, bs, ch => writeImages n (bs.drop 560) (bankAdd ch (BitVec.ofNat 4480 (bytesNat (bs.take 560))))

/-- Cut a byte range at the multiples of a size of its address: offset and length of each piece. (DEDUCED, log 46) -/
def cutAt (size addr n : Nat) : List (Nat × Nat) :=
  if n = 0 then []
  else
    (List.range ((addr + n - 1) / size - addr / size + 1)).map fun k =>
      let lo := max addr (size * (addr / size + k))
      let hi := min (addr + n) (size * (addr / size + k) + size)
      (lo - addr, hi - lo)

/-- The largest write of the racking engine: Max Payload Size, of which the module supports 512 bytes (R339). -/
def writeSize (ch : Chan) : Nat := min 512 (128 * 2 ^ (engineCtl ch).maxPayload.toNat)

/-- Write host memory, in writes of at most Max Payload Size (R339): no request is sent while Bus Master Enable is 0 (R352).
(DEDUCED, log 115) -/
def writeHost (off addr : Nat) (bs : List Byte) (r : WriteRes) : WriteRes :=
  if (engineCtl r.ch).bme then
    { r with ch := (cutAt (writeSize r.ch) addr bs.length).foldl (fun ch x =>
      hostSend ch (.write (addr + x.1) ((bs.drop x.1).take x.2) (engineCtl ch).relaxed)) r.ch }
  else { r with fail := some off }

/-- The status of a transfer that stops at a write: HOST_ERR for host memory, else POISON (R264, R283, R352). -/
def stopStatus (space : Nat) : Byte := if space = 0 then 5 else 4

/-- Write bytes to a byte-addressed space, from a word-side offset. -/
def writeSpace (ch : Chan) (space : Nat) (retry : Bool) (clash : List Nat) (off addr : Nat) (bs : List Byte) :
    WriteRes :=
  let r : WriteRes := { ch := ch, retry := [], lost := false, fail := none }
  if bs = [] then r
  else
    match space with
    | 0 => writeHost off addr bs r
    | 1 => writeHbm off addr bs r
    | 2 => writeDmem retry clash off addr bs r
    | 3 => writeImem addr bs r
    | _ => { r with ch := writeImages (bs.length / 560) bs ch }

end Sys2Proof.Machine
end

