-- ==== Sys2Proof/Machine/QueuePairs.lean ====
section
/-! DEFINITION. Queue pairs: registers, doorbells, fetching, completions and interrupts (R263, R265 to R276, R449,
R450). -/

namespace Sys2Proof.Machine

/-! ### Queue pairs -/

/-- A queue pair. -/
def qpAt (ch : Chan) (q : Nat) : QP := (ch.rack.qps[q]?).getD QP.reset

/-- Change a queue pair. -/
def setQp (ch : Chan) (q : Nat) (f : QP → QP) : Chan :=
  { ch with rack := { ch.rack with qps := ch.rack.qps.setIfInBounds q (f (qpAt ch q)) } }

/-- The depth of its rings. -/
def qpDepth (p : QP) : Nat := 2 ^ p.log2.toNat

/-- The base of its rings (R265). -/
def qpBase (p : QP) : Nat := p.baseLo.toNat + p.baseHi.toNat * 2 ^ 32

/-- Where submission slot `k` and completion slot `k` lie (R265). -/
def sqSlot (p : QP) (k : Nat) : Nat := qpBase p + 64 * k
def cqSlot (p : QP) (k : Nat) : Nat := qpBase p + 64 * qpDepth p + 16 * k

/-- RQ_CFG.ACTIVE: fetched entries, or completions with words still to land, remain (R266). -/
def qpActive (ch : Chan) (q : Nat) : Bool :=
  ch.rack.entries.any (fun e => decide (e.q = q)) || ch.rack.posting.any fun x => decide (x.q = q)

/-- Tags held (R270, R450). -/
def tagsHeld (ch : Chan) : Nat := ch.rack.entries.length + (ch.rack.posting.filter fun x => x.tag.isSome).length

/-- Replace an entry by tag. -/
def setEntry (ch : Chan) (tag : Nat) (f : Entry → Entry) : Chan :=
  { ch with rack := { ch.rack with entries := ch.rack.entries.map fun e => if e.tag = tag then f e else e } }

/-- The entry with a tag. -/
def entryAt (ch : Chan) (tag : Nat) : Option Entry := ch.rack.entries.find? fun e => decide (e.tag = tag)

/-! ### Interrupts (R276) -/

/-- The queue fires: line 3 or its MSI-X vector. -/
def fireQp (ch : Chan) (q : Nat) : Chan :=
  let p := qpAt ch q
  let ch := setQp ch q fun p => { p with counted := 0, waited := 0 }
  if p.irqTgt then raiseLine ch 3 else chanVec ch q

/-- A trigger holds: COUNT, where 0 is read as 1, or TIME, where 0 disables it. -/
def triggerHolds (p : QP) : Bool :=
  decide (p.counted ≠ 0)
    && (decide (p.counted ≥ max 1 p.modCount.toNat) || decide (p.modTime ≠ 0 ∧ p.waited ≥ p.modTime.toNat))

/-- Fire if a trigger holds and IRQ_EN is 1. The engine of a fenced channel, whose registers the debug port may still write,
sends no interrupt (R281). -/
def fireIfDue (ch : Chan) (q : Nat) : Chan :=
  if (qpAt ch q).irqEn && triggerHolds (qpAt ch q) && decide (ch.cstate ≠ .fenced) then fireQp ch q else ch

/-- An error at a queue pair sends vector 259, but not from a fenced channel (R281). -/
def queueVec (ch : Chan) : Chan := if ch.cstate = .fenced then ch else chanVec ch 259

/-- A completion counts. -/
def countQp (ch : Chan) (q : Nat) : Chan := fireIfDue (setQp ch q fun p => { p with counted := p.counted + 1 }) q

/-- RQ_MOD.TIME microseconds have passed since the first completion that is counted. -/
def modTimer (q : Nat) (ch : Chan) : Chan :=
  if memoriesClocked ch && decide ((qpAt ch q).counted ≠ 0) then
    fireIfDue (setQp ch q fun p => { p with waited := max p.waited p.modTime.toNat }) q
  else ch

/-- RQ_MOD_TIMER_EXPIRE (R276). -/
def execRqModTimerExpire (c : Ch) (q : Fin 256) (s : State) : Host.Outcome State Fault Refusal :=
  onChan c (modTimer q.val) s

/-! ### Configuration (R266) -/

/-- What makes an enable set CFGERR. -/
def cfgBad (p : QP) : Bool :=
  decide (p.log2 = 0) || (!p.dmemRing && decide (qpBase p % 4096 ≠ 0))
    || (p.dmemRing && decide (qpBase p % 64 ≠ 0 ∨ qpBase p ≥ dmemSize ∨ qpBase p + 80 * qpDepth p > dmemSize))

/-- ENABLE is written with 1 while ENABLE and ACTIVE are 0. -/
def enableQp (ch : Chan) (q : Nat) : Chan :=
  if cfgBad (qpAt ch q) then queueVec (setQp ch q fun p => { p with cfgerr := true })
  else
    let ch := setQp ch q fun p => { p with
      enable := true, sqdb := 0, cqdb := 0, sqHead := 0, cqTail := 0, tailS := 0, headS := 0, phase := true
      stopped := false }
    { ch with ev := { ch.ev with
      doorbells := ch.ev.doorbells.filter fun d => decide (d.1 ≠ q), rung := ch.ev.rung.filter fun d => decide (d.1 ≠ q) } }

/-- A write of RQ_CFG. While ENABLE or ACTIVE is 1 only ENABLE is written. (DEDUCED, log 43) -/
def writeRqCfg (q : Nat) (v : Word) (ch : Chan) : Chan :=
  let p := qpAt ch q
  if p.enable then (if bit v 0 then ch else setQp ch q fun p => { p with enable := false })
  else if qpActive ch q then ch
  else
    let ch := setQp ch q fun p => { p with
      dmemRing := bit v 1, log2 := v.extractLsb' 2 4, ordered := bit v 6, prio := bit v 7, irqTgt := bit v 8
      irqEn := bit v 9, dberr := p.dberr && !bit v 17, cfgerr := p.cfgerr && !bit v 18 }
    let ch := fireIfDue ch q
    if bit v 0 then enableQp ch q else ch

/-- A register that is ignored while ENABLE or ACTIVE is 1. -/
def writeIdleQp (q : Nat) (f : QP → QP) (ch : Chan) : Chan :=
  if (qpAt ch q).enable || qpActive ch q then ch else setQp ch q f

/-- A write of RQ_MOD, which may leave a trigger that already holds (R276). -/
def writeRqMod (q : Nat) (v : Word) (ch : Chan) : Chan :=
  fireIfDue (writeIdleQp q (fun p => { p with modCount := v.setWidth 16, modTime := v.extractLsb' 16 16 }) ch) q

/-- RQ_CFG as it reads. -/
def readRqCfg (ch : Chan) (q : Nat) : Word :=
  let p := qpAt ch q
  bitAt p.enable 0 ||| bitAt p.dmemRing 1 ||| fldAt p.log2.toNat 2 ||| bitAt p.ordered 6 ||| bitAt p.prio 7
    ||| bitAt p.irqTgt 8 ||| bitAt p.irqEn 9 ||| bitAt (qpActive ch q) 16 ||| bitAt p.dberr 17 ||| bitAt p.cfgerr 18

/-- The channel's memories and racking engine are clocked, so a register write reaches them. -/
def whileClocked (f : Chan → Chan) (ch : Chan) : Chan := if memoriesClocked ch then f ch else ch

/-- RQ_CFG_ENABLE: a write of RQ_CFG with ENABLE 1 (R266). -/
def execRqCfgEnable (c : Ch) (q : Fin 256) (v : Word) (s : State) : Host.Outcome State Fault Refusal :=
  onChan c (whileClocked (writeRqCfg q.val (v ||| 1))) s

/-- RQ_CFG_DISABLE: a write of RQ_CFG with ENABLE 0 (R266). -/
def execRqCfgDisable (c : Ch) (q : Fin 256) (v : Word) (s : State) : Host.Outcome State Fault Refusal :=
  onChan c (whileClocked (writeRqCfg q.val (v &&& ~~~1#32))) s

/-! ### Doorbells (R21, R267) -/

/-- A doorbell value of depth or above is ignored, sets DBERR and stops fetching. (DEDUCED, log 42) -/
def badDoorbell (ch : Chan) (q : Nat) : Chan :=
  queueVec (setQp ch q fun p => { p with dberr := true, stopped := true })

/-- A doorbell write, of the SQ tail or of the CQ head, whether or not the queue is enabled. (DEDUCED, log 42) -/
def writeDoorbell (cq : Bool) (q : Nat) (v : Word) (ch : Chan) : Chan :=
  let x : Half := v.setWidth 16
  if x.toNat ≥ qpDepth (qpAt ch q) then badDoorbell ch q
  else setQp ch q fun p => if cq then { p with cqdb := x } else { p with sqdb := x }

/-- RQ_SQDB_WRITE (R267). -/
def execRqSqdbWrite (c : Ch) (q : Fin 256) (v : Word) (s : State) : Host.Outcome State Fault Refusal :=
  onChan c (whileClocked (writeDoorbell false q.val v)) s

/-- RQ_CQDB_WRITE (R267). -/
def execRqCqdbWrite (c : Ch) (q : Fin 256) (v : Word) (s : State) : Host.Outcome State Fault Refusal :=
  onChan c (whileClocked (writeDoorbell true q.val v)) s

/-- The engine samples one doorbell of a queue pair. -/
def sampleDoorbell (cq : Bool) (q : Nat) (ch : Chan) : Chan :=
  if (qpAt ch q).enable then setQp ch q fun p => if cq then { p with headS := p.cqdb } else { p with tailS := p.sqdb }
  else ch

/-- The engine samples the doorbells of a queue pair. -/
def sampleDoorbells (q : Nat) (ch : Chan) : Chan := sampleDoorbell true q (sampleDoorbell false q ch)

/-- DOORBELL_SAMPLE (R21). -/
def execDoorbellSample (c : Ch) (q : Fin 256) (s : State) : Host.Outcome State Fault Refusal :=
  onChan c (whileClocked (sampleDoorbells q.val)) s

/-! ### RFENCE (R201) -/

/-- The entries of a queue pair that are submitted and not yet fetched. -/
def unfetched (p : QP) : Nat := (p.tailS.toNat + qpDepth p - p.sqHead.toNat) % qpDepth p

/-- The entries between the head of an SQ and a doorbell value. -/
def entriesTo (p : QP) (x : Nat) : Nat := (x + qpDepth p - p.sqHead.toNat) % qpDepth p

/-- The entries still to be fetched that lie before an SQ doorbell value of this controller that the engine has sampled. -/
def ownUnfetched (ch : Chan) (q : Nat) : Nat :=
  let p := qpAt ch q
  let ns := (ch.ev.doorbells.filter fun d => decide (d.1 = q)).map fun d => entriesTo p d.2
  if p.enable then (ns.filter (· ≤ unfetched p)).foldl max 0 else 0

/-- An entry is fetched: whether it lies before an SQ doorbell value of this controller; a value that is reached is done
with. -/
def ownTake (ch : Chan) (q : Nat) : Chan × Bool :=
  let reached := fun (d : Nat × Nat) => decide (d.1 = q ∧ entriesTo (qpAt ch q) d.2 ≤ 1 ∧ unfetched (qpAt ch q) ≠ 0)
  ({ ch with ev := { ch.ev with doorbells := ch.ev.doorbells.filter fun d => !reached d } },
    decide (ownUnfetched ch q ≠ 0))

/-- RFENCE makes the engine sample every doorbell that this controller wrote, and covers every entry up to the SQ values
that it wrote: those in flight are marked, and the answer counts those still to be fetched. -/
def rfenceMark (ch : Chan) : Chan × List (Nat × Nat) :=
  let ch := ch.ev.rung.foldl (fun ch d => sampleDoorbell d.2 d.1 ch) ch
  ({ ch with rack := { ch.rack with entries := ch.rack.entries.map fun e => { e with covered := e.own } } },
    (ch.ev.doorbells.map (·.1)).eraseDups.map fun q => (q, ownUnfetched ch q))

/-- A fetched entry is one that a waiting RFENCE covers; the count of its queue pair falls. -/
def rfenceTake (ch : Chan) (q : Nat) : Chan × Bool :=
  match ch.ev.wait with
  | some { kind := .rfence ws, len := n } =>
    if ws.any fun w => decide (w.1 = q ∧ w.2 ≠ 0) then
      ({ ch with ev := { ch.ev with
        wait := some { kind := .rfence (ws.map fun w => if w.1 = q then (q, w.2 - 1) else w), len := n } } }, true)
    else (ch, false)
  | _ => (ch, false)

/-! ### Fetching (R268, R270, R271, R449) -/

/-- Entries fetched and not yet posted, plus completions posted and not yet released. -/
def reserved (ch : Chan) (q : Nat) : Nat :=
  let p := qpAt ch q
  (ch.rack.entries.filter fun e => decide (e.q = q)).length
    + (p.cqTail.toNat + qpDepth p - p.headS.toNat) % qpDepth p

/-- The queue pair has an entry to fetch, a CQ slot and a tag for it, and its ring can be read (R268, R270, R352). -/
def fetchable (ch : Chan) (q : Nat) : Bool :=
  let p := qpAt ch q
  p.enable && !p.stopped && decide (p.tailS ≠ p.sqHead) && decide (reserved ch q + 2 ≤ qpDepth p)
    && (p.dmemRing || (engineCtl ch).bme) && decide (tagsHeld ch < 512)

/-- The next queue pair of a class in its round-robin: 0 for PRIO 0. (DESIGN CHOICE, log 44) -/
def nextOfClass (ch : Chan) (prio : Bool) : Option Nat :=
  let start := if prio then ch.rack.rr1 else ch.rack.rr0
  ((List.range 256).map fun k => (start + k) % 256).find? fun q => decide ((qpAt ch q).prio = prio) && fetchable ch q

/-- The queue pair that the engine serves (R271). (DESIGN CHOICE, log 44) -/
def arbiter (ch : Chan) : Option Nat :=
  match nextOfClass ch false with
  | some q => some q
  | none => nextOfClass ch true

/-- The lowest free tag. -/
def freeTag (ch : Chan) : Nat :=
  ((List.range 512).find? fun t =>
    !(ch.rack.entries.any (fun e => decide (e.tag = t)) || ch.rack.posting.any fun x => decide (x.tag = some t))).getD 0

/-- Sixteen cells from 64 bytes. -/
def cellsOf (bs : List Byte) : List Word :=
  (List.range 16).map fun k => BitVec.ofNat 32 (bytesNat ((bs.drop (4 * k)).take 4))

/-- A submission entry has been read: it is checked (R262), and one that a check refuses is finished at once. -/
def cellsArrive (m : Mill) (e : Entry) (cs : List Word) : Entry :=
  { e with
    cells := cs
    buf := []
    state := if entryCheck m cs = 0 then .fetched else .finished (entryCheck m cs) 0 0 }

/-- An entry whose read failed moves nothing (R449). -/
def unread (e : Entry) (status : Byte) : Entry :=
  { e with cells := [], buf := [], state := .finished status 1 (BitVec.ofNat 32 e.slot) }

/-- The engine fetches the next entry of a queue pair. (DEDUCED, log 41) -/
def fetchEntry (q : Nat) (ch : Chan) : Chan :=
  if memoriesClocked ch = false ∨ arbiter ch ≠ some q then ch
  else
    let p := qpAt ch q
    let slot := p.sqHead.toNat
    let o := ownTake ch q
    let w := rfenceTake o.1 q
    let ch := setQp w.1 q fun p => { p with sqHead := BitVec.ofNat 16 ((slot + 1) % qpDepth p) }
    let ch := { ch with rack := { ch.rack with
      rr0 := if p.prio then ch.rack.rr0 else (q + 1) % 256
      rr1 := if p.prio then (q + 1) % 256 else ch.rack.rr1 } }
    let e : Entry := {
      tag := freeTag ch, q := q, slot := slot, cells := [], state := .reading, lost := false, retry := [], acks := 0
      refused := none, own := o.2, covered := w.2, mark := 0, buf := [] }
    if p.dmemRing then
      let r := readDmem ch (sqSlot p slot) 64
      let e := match r.2.2 with
        | some _ => unread e 4
        | none => cellsArrive r.1.mill e (cellsOf r.2.1)
      { r.1 with rack := { r.1.rack with entries := r.1.rack.entries ++ [e] } }
    else
      hostSend { ch with rack := { ch.rack with entries := ch.rack.entries ++ [e] } }
        (.read e.tag (sqSlot p slot) 64)

/-- The entry waits for an answer of the host. -/
def awaitsHost (ch : Chan) (e : Entry) : Bool :=
  match e.state with
  | .reading => !(qpAt ch e.q).dmemRing
  | .hostRead _ _ => true
  | _ => false

/-- The port may send one more read: at most 768 non-posted requests are outstanding (R339). The two members of a pair that
compare send one read between them. (DEDUCED, log 46) -/
def mayRead (s : State) : Bool :=
  decide (((s.chans.toList.filter fun ch => !(comparing ch && oddChan ch)).map
    fun ch => (ch.rack.entries.filter (awaitsHost ch)).length).sum < 768)

/-- SQ_ENTRY_FETCH (R268); a fetch from a ring in host memory waits while the port can send no read. -/
def execSqEntryFetch (c : Ch) (q : Fin 256) (s : State) : Host.Outcome State Fault Refusal :=
  if (qpAt (s.chan c) q.val).dmemRing || mayRead s then onChan c (fetchEntry q.val) s else .next s

/-! ### Completions (R263, R268, R273, R274, R450) -/

/-- The entry is complete: it has finished, no word waits for a retry, and an FMT 1 transfer has seen its frame checks
(R274, R307). -/
def entryComplete (ch : Chan) (e : Entry) : Bool :=
  (match e.state with
  | .finished _ _ _ => true
  | _ => false) && decide (e.retry = []) && decide (e.mark ≤ ch.mill.checks)

/-- The entries of the same queue pair that were fetched before an entry. -/
def earlierOf (ch : Chan) (e : Entry) : List Entry :=
  (ch.rack.entries.takeWhile fun x => decide (x.tag ≠ e.tag)).filter fun x => decide (x.q = e.q)

/-- An error status of R276, which raises line 4. -/
def isError (st : Byte) : Bool := decide (2 ≤ st.toNat ∧ st.toNat ≤ 8)

/-- The whole completion entry is in its slot: line 4 on an error status, then the interrupt count. -/
def landed (ch : Chan) (x : Posting) : Chan :=
  let ch := if x.err then raiseLine ch 4 else ch
  let ch := if x.count then countQp ch x.q else ch
  match x.ack with
  | some p => respond ch p 0
  | none => ch

/-- Write a completion entry into the next CQ slot of a queue pair; words in `clash` drop in DMEM. -/
def postCells (ch : Chan) (clash : List Nat) (c0 c1 c2 : Word) (x : Posting) : Chan :=
  let p := qpAt ch x.q
  let cells := [c0, c1, c2, bitAt p.phase 0]
  let a := cqSlot p p.cqTail.toNat
  let wrap := decide (p.cqTail.toNat + 1 = qpDepth p)
  let ch := setQp ch x.q fun p => { p with
    cqTail := if wrap then 0 else p.cqTail + 1, phase := if wrap then !p.phase else p.phase }
  if p.dmemRing then
    let ws := (List.range 4).map fun k => (a / 4 + k, cells.getD k 0)
    let ch := (ws.filter fun w => decide (w.1 ∉ clash)).foldl (fun ch w => dmemWrite ch (4 * w.1) w.2) ch
    let left := ws.filter fun w => decide (w.1 ∈ clash)
    if left = [] then landed ch x
    else { ch with rack := { ch.rack with posting := ch.rack.posting ++ [{ x with words := left }] } }
  else
    landed (hostSend ch (.write a (cells.flatMap fun w => natBytes 4 w.toNat) false)) x

/-- STATUS of a finished entry: WRITE_LOST takes the place of OK (R238, R264). -/
def finalStatus (e : Entry) (st : Byte) : Byte := if st = 0 ∧ e.lost = true then 1 else st

/-- Post the completion of an entry, which frees its tag. -/
def postEntry (ch : Chan) (e : Entry) (clash : List Nat) : Chan :=
  match e.state with
  | .finished st reason aux =>
    let fs := finalStatus e st
    let detail := b2n (e.lost && decide (st ≠ 0)) + 2 * reason
    let ch := { ch with rack := { ch.rack with entries := ch.rack.entries.filter fun x => decide (x.tag ≠ e.tag) } }
    let c0 := fldAt (cCid e.cells).toNat 0 ||| fldAt (qpAt ch e.q).sqHead.toNat 16
    postCells ch clash c0 (fldAt fs.toNat 0 ||| fldAt detail 8 ||| fldAt e.q 16) aux
      { q := e.q, tag := some e.tag, words := [], count := cFlag e.cells 2 || decide (fs ≠ 0), err := isError fs
        ack := none }
  | _ => ch

/-- The completion may be written: the entry is complete, an ordered queue has posted its earlier entries, and the ring
can be written (R273, R274, R352). -/
def postable (ch : Chan) (e : Entry) : Bool :=
  entryComplete ch e
    && (!(qpAt ch e.q).ordered
      || (decide (earlierOf ch e = []) && !ch.rack.posting.any fun x => decide (x.q = e.q) && x.tag.isSome))
    && ((qpAt ch e.q).dmemRing || (engineCtl ch).bme)

/-- A dropped word of a completion entry is written again (R450). -/
def cqWordRetry (q : Nat) (lands : Bool) (ch : Chan) : Chan :=
  match ch.rack.posting.find? fun x => decide (x.q = q) with
  | none => ch
  | some x =>
    match x.words with
    | [] => ch
    | w :: rest =>
      if lands = false ∨ memoriesClocked ch = false then ch
      else
        let ch := dmemWrite ch (4 * w.1) w.2
        if rest = [] then landed { ch with rack := { ch.rack with posting := ch.rack.posting.erase x } } x
        else
          { ch with rack := { ch.rack with
            posting := ch.rack.posting.map fun y => if y = x then { x with words := rest } else y } }

/-- CQ_WORD_RETRY (R450). -/
def execCqWordRetry (c : Ch) (q : Fin 256) (lands : Bool) (s : State) : Host.Outcome State Fault Refusal :=
  onChan c (cqWordRetry q.val lands) s

end Sys2Proof.Machine
end

