-- ==== Sys2Proof/Machine/Transfer.lean ====
section
/-! DEFINITION. Transfers: their start, plane staging, host data, retries and their end (R62, R238, R246, R258 to R264,
R272, R274, R277, R289 to R293, R307, R352). -/

namespace Sys2Proof.Machine

/-! ### Plane data -/

/-- The local bit of a tun, 128 · row + column, that a PE occupies. -/
def tunRow (tun k : Nat) : Nat := 128 * (tun / 8) + k / 128
def tunCol (tun k : Nat) : Nat := 128 * (tun % 8) + k % 128

/-- The PEs of a tun that elements `lo` to `hi - 1` of a rectangle reach. -/
def tunMask (p : PlaneEnd) (lo hi tun : Nat) : BitVec 16384 :=
  BitVec.ofFnLE (n := 16384) fun k =>
    epIn p (tunRow tun k) (tunCol tun k)
      && decide (lo ≤ epElem p (tunRow tun k) (tunCol tun k) ∧ epElem p (tunRow tun k) (tunCol tun k) < hi)

/-- Bit `i` of the elements that a tun holds; element `e` is at bit `8 · stride · e` of `w`. -/
def tunBits (p : PlaneEnd) (w stride i tun : Nat) : BitVec 16384 :=
  BitVec.ofFnLE (n := 16384) fun k =>
    epIn p (tunRow tun k) (tunCol tun k) && w.testBit (8 * stride * epElem p (tunRow tun k) (tunCol tun k) + i)

/-- The tuns that a rectangle reaches. -/
def epTuns (p : PlaneEnd) : List Nat :=
  (List.range 64).filter fun t =>
    decide (p.row0 < 128 * (t / 8) + 128 ∧ 128 * (t / 8) < p.row0 + p.nrows ∧ 64 * p.col0 < 128 * (t % 8) + 128
      ∧ 128 * (t % 8) < 64 * (p.col0 + p.ncols))

/-- The staging parts of elements `lo` to `hi - 1`, plane after plane (R62). -/
def stageParts (p : PlaneEnd) (w stride lo hi tag : Nat) (out : Bool) : List Staged :=
  (List.range p.width).flatMap fun i => ((epTuns p).filter fun t => decide (tunMask p lo hi t ≠ 0)).map fun t =>
    { tun := t, plane := p.first + i, out := out, done := false
      data := if out then 0 else tunBits p w stride i t &&& tunMask p lo hi t, mask := tunMask p lo hi t, tag := tag }

/-- A tun's bits in the sheet. -/
def placeTun (tun : Nat) (b : BitVec 16384) : Sheet :=
  (List.range 128).foldl (fun acc r =>
    acc ||| (((b.extractLsb' (128 * r) 128).setWidth 1048576) <<< (1024 * (128 * (tun / 8) + r) + 128 * (tun % 8)))) 0

/-- A tun's bits of a sheet. (DESIGN CHOICE, log 32) -/
def takeTun (tun : Nat) (x : Sheet) : BitVec 16384 :=
  (List.range 128).foldl (fun acc r =>
    acc ||| ((x.extractLsb' (1024 * (128 * (tun / 8) + r) + 128 * (tun % 8)) 128).setWidth 16384 <<< (128 * r))) 0

/-- The elements that outbound parts carry, element `e` at bit `8 · stride · e`. -/
def gather (p : PlaneEnd) (stride : Nat) (parts : List Staged) : Nat :=
  parts.foldl (fun acc s =>
    (List.range 16384).foldl (fun acc k =>
      if s.mask.getLsbD k && s.data.getLsbD k then
        acc ||| 2 ^ (8 * stride * epElem p (tunRow s.tun k) (tunCol s.tun k) + (s.plane - p.first))
      else acc) acc) 0

/-- Plane memory in retention wakes for a transfer that needs it (R246). -/
def wakePlanes (ch : Chan) : Chan :=
  if ch.mem.planeRet then { ch with mem := { ch.mem with planeRet := false, waking := true } } else ch

/-! ### The Mill's state as transfers meet it (R297, R306, R307) -/

/-- Change the Mill. -/
def setMill (ch : Chan) (f : Mill → Mill) : Chan := { ch with mill := f ch.mill }

/-- The Mill runs: RUN, in a channel that is neither fenced, nor in DOZE, nor frozen (R302, R304, R308, R396). -/
def millRuns (ch : Chan) : Bool :=
  decide (ch.mill.state = .run) && decide (ch.cstate ≠ .fenced) && decide (ch.cstate ≠ .doze) && !frozen ch

/-- The source of a clock tree in the image. -/
def treeSource (m : Mill) (tree : Nat) : Nat :=
  match m.image with
  | some i => fld (i.clk.toList.getD tree 0) 0 3
  | none => 0

/-- The tree runs: the Mill runs, and a tap clock's lane is enabled, and locked where it is the receive lane. -/
def treeRuns (ch : Chan) (tree : Nat) : Bool :=
  millRuns ch &&
    (match treeSource ch.mill tree with
    | 0 => false
    | 3 => bit ch.mill.tapCtl 1 && ch.mill.lock
    | 4 => bit ch.mill.tapCtl 0
    | _ => true)

/-- The entry has started. -/
def entryStarted (e : Entry) : Bool :=
  match e.state with
  | .reading => false
  | .fetched => false
  | _ => true

/-- The entry is an FMT 1 transfer of this channel's Mill that has started. -/
def usesMill (e : Entry) : Bool :=
  let cs := e.cells
  entryStarted e && decide (cOp cs = 1 ∨ cOp cs = 2) && hasPlanes cs && decide (cDst cs ≠ 7)
    && (planeEnd (cellOf cs 7) (cellOf cs 8)).fmt

/-- A check of R262 refused it, so that it never started. -/
def refusedEntry (e : Entry) : Bool :=
  match e.state with
  | .finished st _ _ => decide (st = 2 ∨ st = 3 ∨ st = 6)
  | _ => false

/-- Free bytes, drawn one word at a time. -/
def freeBytes : Nat → Chan → List Byte × Chan
  | 0, ch => ([], ch)
  | n + 1, ch =>
    let d := drawFree ch
    let r := freeBytes n d.2
    (natBytes 4 (Config.freeWord d.1).toNat ++ r.1, r.2)

/-- The planes of elements `lo` to `hi - 1` of a rectangle become free values. -/
def freeElems (p : PlaneEnd) (lo hi : Nat) : Nat → Chan → Chan
  | 0, ch => ch
  | i + 1, ch =>
    let d := drawFree (freeElems p lo hi i ch)
    let m := (epTuns p).foldl (fun acc t => acc ||| placeTun t (tunMask p lo hi t)) 0
    putMasked d.2 (p.first + i) (Config.freeSheet d.1) m

/-- The contents of the destination are undefined: free values. -/
def freeTarget (ch : Chan) (e : Entry) : Chan :=
  let p := planeEnd (cellOf e.cells 7) (cellOf e.cells 8)
  let d := cDst e.cells
  if d = 4 then freeElems p 0 (epCount p) p.width ch
  else
    let r := freeBytes ((epBytes p + 3) / 4) ch
    let bs := r.1.take (epBytes p)
    let words := fun (a : Nat) (x : SpargeMem) => (List.range ((bs.length + 3) / 4)).foldl (fun x i =>
      noteCell x ((a / 4 + i) / 64) ((a / 4 + i) % 64) .mixed) x
    let a := cDstAddr e.cells
    if d = 1 then { r.2 with hbm := { r.2.hbm with bytes := memSetBytes r.2.hbm.bytes a bs } }
    else if d = 2 then
      { r.2 with mem := { r.2.mem with
        dmem := memSetBytes r.2.mem.dmem (a % dmemSize) bs, spD := words (a % dmemSize) r.2.mem.spD } }
    else if d = 3 then
      { r.2 with mem := { r.2.mem with imem := memSetBytes r.2.mem.imem a bs, spI := words a r.2.mem.spI } }
    else ch

/-- An FMT 1 transfer completes with POISON and ERR_OFFSET 0 because the Mill halts. (DESIGN CHOICE, log 52) -/
def poisonFmt (ch : Chan) (e : Entry) : Chan :=
  let ch := freeTarget ch e
  let ch := setEntry ch e.tag fun e => { e with state := .finished 4 0 0, mark := 0, retry := [], buf := [] }
  { ch with arr := { ch.arr with staging := ch.arr.staging.filter fun x => decide (x.tag ≠ e.tag) } }

/-- The plane endpoint that a PLANE_WRITE carries. -/
def packetEnd (p : Packet) : PlaneEnd := planeEnd (hcell p 6) (hcell p 7)

/-- An inbound plane write's staging key: it cannot meet a local tag. -/
def inboundKey (p : Packet) : Nat := 512 + 4096 * (pSrc p).toNat + pTag p

/-- The notification belongs to the packet's transfer: its origin, tag, CID and SQID are the packet's, and after a refusal
the packet goes on where the last one ended, for the origin sends nothing new until then. (DESIGN CHOICE, log 124) -/
def noteOf (p : Packet) (n : Note) : Bool :=
  decide (n.src = pSrc p ∧ pTag n.pkt = pTag p ∧ n.cid = pCid p ∧ n.sqid = pSqid p)
    && (!n.refused || decide (pAddr p = pAddr n.pkt + pBytes n.pkt))

/-- The notification of a transfer's packet replaces those that the transfer, or a refused one before it, left. -/
def putNote (ch : Chan) (n : Note) : Chan :=
  let old := fun (m : Note) => decide (m.src = n.src ∧ pTag m.pkt = pTag n.pkt ∧ m.cid = n.cid ∧ m.sqid = n.sqid)
  { ch with rack := { ch.rack with notes := ch.rack.notes.filter (fun m => !old m) ++ [n] } }

/-- Data of a packet that requests a notification is visible: the notification waits, and with it the RESPONSE to the
packet of its transfer that came last; after a refusal nothing waits (R278, R279). -/
def holdNote (ch : Chan) (p : Packet) : Chan :=
  let new : Note := { cid := pCid p, sqid := pSqid p, src := pSrc p, pkt := p, bytes := pBytes p, refused := false }
  match ch.rack.notes.find? (noteOf p) with
  | some n =>
    let ch := putNote ch { n with pkt := p, bytes := n.bytes + pBytes p }
    respond ch (if n.refused then p else n.pkt) 0
  | none => putNote ch new

/-- A packet of a transfer with a notification never becomes visible: the notification is not given, and the packet that
waited for it, whose data is visible, is acknowledged (R278, R279). -/
def dropNote (ch : Chan) (p : Packet) : Chan :=
  if pNotify p = false then ch
  else
    match ch.rack.notes.find? (noteOf p) with
    | some n =>
      let ch := putNote ch { n with pkt := p, refused := true }
      if n.refused then ch else respond ch n.pkt 0
    | none =>
      putNote ch { cid := pCid p, sqid := pSqid p, src := pSrc p, pkt := p, bytes := 0, refused := true }

/-- A packet is refused: the RESPONSE carries the reason (R278). -/
def refuseWrite (ch : Chan) (p : Packet) (reason : Nat) : Chan := respond (dropNote ch p) p reason

/-- An inbound FMT 1 write that the halt meets: what it would have written is undefined, and the destination refuses the
packet with reason 4, for no RESPONSE carries POISON. (DESIGN CHOICE, log 52) -/
def poisonInbound (ch : Chan) (p : Packet) : Chan :=
  let e := packetEnd p
  let ch := freeElems e (pAddr p / epSize e) ((pAddr p + pBytes p) / epSize e) e.width ch
  refuseWrite { ch with
    arr := { ch.arr with staging := ch.arr.staging.filter fun x => decide (x.tag ≠ inboundKey p) }
    rack := { ch.rack with held := ch.rack.held.filter fun h => decide (h.1 ≠ p) } } p 4

/-- The Mill halts, and the elements at its engines are lost: flags, line 9, UCC 0x17, and POISON for every FMT 1 transfer
that has started and not posted its completion (R306, R307). (DESIGN CHOICE, log 52) -/
def millHalt (parity : Bool) (ch : Chan) : Chan :=
  let ch := setMill ch fun m =>
    { millHeld m with
      jobs := [], state := .halted, scrubErr := m.scrubErr || !parity, parityErr := m.parityErr || parity }
  let ch := report (raiseLine ch 9) .ucc 0x17 0 0
  let ch := (ch.rack.entries.filter fun e => usesMill e && !refusedEntry e).foldl poisonFmt ch
  ((ch.rack.held.map (·.1)).filter fun p => (packetEnd p).fmt).foldl poisonInbound ch

/-! ### The Mill (R290 to R292) -/

/-- Rising EVENT ports raise lines 16 and above (R295). -/
def raiseEvents (ch : Chan) (ns : List Nat) : Chan := ns.foldl (fun ch n => raiseLine ch (16 + n)) ch

/-- Element `e` of a word side with elements of `stride` bytes. -/
def elemOf (w stride e : Nat) : Nat := w / 2 ^ (8 * stride * e) % 2 ^ (8 * stride)

/-- Elements `lo` to `hi - 1` of an endpoint come to the engines, to pass through its mill format (R290, R292): element `e`
is in `w`, with elements of `stride` bytes. -/
def toLanes (key lo hi : Nat) (p : PlaneEnd) (w stride : Nat) (out : Bool) (ch : Chan) : Chan :=
  let xs := (List.range (hi - lo)).map fun k => (lo + k, elemOf w stride (lo + k))
  setMill ch fun m => { m with jobs := m.jobs ++ [newJob key lo out p.mfmt p.width p.esize p.ncols xs] }

/-- The frame checks after which an FMT 1 transfer that ends now may complete: every cell frame and the global section
once more (R305, R307). -/
def markNow (ch : Chan) (p : PlaneEnd) : Nat := if p.fmt then ch.mill.checks + 2049 else 0

/-! ### Sending to another channel (R277, R323) -/

/-- The packets of a remote transfer: KIND 1 at an HBM address, KIND 2 at a word-side offset. (DEDUCED, log 47) -/
def remotePackets (ch : Chan) (e : Entry) (bs : List Byte) : List Packet :=
  let cs := e.cells
  let hbm := decide (cDst cs = 6)
  let base := if hbm then cDstAddr cs else 0
  (cutAt 512 base bs.length).map fun x =>
    let part := (bs.drop x.1).take x.2
    { hdr := mkHeader ch.keg (if hbm then 1 else 2) ((x.2 + 63) / 64) (cFlag cs 3) (cRch cs) e.tag (base + x.1) x.2 0
        (if hbm then 0 else cellOf cs 7) (if hbm then 0 else cellOf cs 8)
        (if cFlag cs 3 then fldAt (cCid cs).toNat 0 ||| fldAt e.q 16 else 0)
      flits := payload 9 part }

/-! ### The write side of a transfer -/

/-- Finish an entry. (DESIGN CHOICE, log 49) -/
def finish (ch : Chan) (tag : Nat) (st : Byte) (aux : Nat) : Chan :=
  setEntry ch tag fun e => { e with state := .finished st 0 (BitVec.ofNat 32 aux), buf := [] }

/-- The elements of a plane endpoint are staged, at `stride` bytes an element of `w` (R62, R259). -/
def stagePlanes (ch : Chan) (e : Entry) (w stride : Nat) : Chan :=
  let p := planeEnd (cellOf e.cells 7) (cellOf e.cells 8)
  let parts := stageParts p w stride 0 (epCount p) e.tag false
  let ch := setEntry (wakePlanes ch) e.tag fun e => { e with state := .moving, buf := [], mark := markNow ch p }
  { ch with arr := { ch.arr with staging := ch.arr.staging ++ parts } }

/-- All of a transfer's data reaches a plane endpoint: under FMT 1 it passes through the Mill first (R62, R259, R290). -/
def planesIn (ch : Chan) (e : Entry) (bs : List Byte) : Chan :=
  let p := planeEnd (cellOf e.cells 7) (cellOf e.cells 8)
  if p.fmt then
    toLanes e.tag 0 (epCount p) p (bytesNat bs) (epSize p) false
      (setEntry ch e.tag fun e => { e with state := .atMill, buf := [] })
  else stagePlanes ch e (bytesNat bs) (epSize p)

/-- All of a transfer's data goes to another channel. -/
def remoteOut (ch : Chan) (e : Entry) (bs : List Byte) : Chan :=
  let ps := remotePackets ch e bs
  ps.foldl inject (setEntry ch e.tag fun e => { e with state := .moving, buf := [], acks := ps.length })

/-- Write data to a byte-addressed destination, or images to the receive bank, from a word-side offset; the entry keeps
its dropped words. The answer is the offset of a unit that could not be written. -/
def dataOut (ch : Chan) (e : Entry) (clash : List Nat) (off : Nat) (bs : List Byte) : Chan × Option Nat :=
  let r := writeSpace ch (cDst e.cells) (cFlag e.cells 0) clash off (cDstAddr e.cells + off) bs
  (setEntry r.ch e.tag fun e => { e with retry := e.retry ++ r.retry, lost := e.lost || r.lost }, r.fail)

/-- All data of a transfer is at hand, or what precedes the unit that failed (R264): a word-side destination takes it,
planes and other channels only take the whole. -/
def deliver (ch : Chan) (e : Entry) (clash : List Nat) (bs : List Byte) (fail : Option Nat) : Chan :=
  let d := cDst e.cells
  match fail with
  | some f =>
    if d = 4 ∨ d = 5 ∨ d = 6 ∨ d = 7 then finish ch e.tag 4 f
    else
      let r := dataOut ch e clash 0 bs
      match r.2 with
      | some g => finish r.1 e.tag (stopStatus d) g
      | none => finish r.1 e.tag 4 f
  | none =>
    if d = 4 then planesIn ch e bs
    else if d = 6 ∨ d = 7 then remoteOut ch e bs
    else
      let r := dataOut ch e clash 0 bs
      match r.2 with
      | some g => finish r.1 e.tag (stopStatus d) g
      | none => finish r.1 e.tag 0 0

/-! ### Starting (R260 to R262, R272) -/

/-- Entries start in ring order, none past a FENCE that has not completed, and a FENCE, or an entry with FENCE_BEFORE,
only when every earlier entry of its queue has completed. -/
def mayStart (ch : Chan) (e : Entry) : Bool :=
  memoriesClocked ch && decide (e.state = .fetched)
    && (earlierOf ch e).all (fun x => entryStarted x && (decide (cOp x.cells ≠ 3) || entryComplete ch x))
    && ((!cFlag e.cells 1 && decide (cOp e.cells ≠ 3)) || (earlierOf ch e).all (entryComplete ch))

/-- Start an entry whose opcode is `op`. -/
def startEntry (op tag : Nat) (f : Chan → Entry → Chan) (ch : Chan) : Chan :=
  match entryAt ch tag with
  | none => ch
  | some e => if mayStart ch e && decide (cOp e.cells = op) then f ch e else ch

/-- RACK_NOP (R261). -/
def execRackNop (c : Ch) (tag : Nat) (s : State) : Host.Outcome State Fault Refusal :=
  onChan c (startEntry 0 tag fun ch _ => finish ch tag 0 0) s

/-- RACK_FENCE (R261). -/
def execRackFence (c : Ch) (tag : Nat) (s : State) : Host.Outcome State Fault Refusal :=
  onChan c (startEntry 3 tag fun ch _ => finish ch tag 0 0) s

/-- The size of a host read: Max Read Request Size, of which the module supports 4,096 bytes (R339). -/
def readSize (ch : Chan) : Nat := min 4096 (128 * 2 ^ (engineCtl ch).maxRead.toNat)

/-- The bytes of the next host read from a word-side offset: it ends at a multiple of its size of the address (R339).
(DEDUCED, log 46) -/
def hostChunk (ch : Chan) (e : Entry) (off : Nat) : Nat :=
  min (wordLen e.cells - off) (readSize ch - (cSrcAddr e.cells + off) % readSize ch)

/-- Ask the host for the next piece of a source. (DEDUCED, log 46) -/
def hostAsk (ch : Chan) (e : Entry) (off : Nat) : Chan :=
  setEntry (hostSend ch (.read e.tag (cSrcAddr e.cells + off) (hostChunk ch e off))) e.tag
    fun e => { e with state := .hostRead off (off + hostChunk ch e off) }

/-- Parts of the rectangle are to be read from planes. -/
def planesOut (ch : Chan) (e : Entry) : Chan :=
  let p := planeEnd (cellOf e.cells 7) (cellOf e.cells 8)
  let ch := setEntry (wakePlanes ch) e.tag fun e => { e with state := .moving }
  { ch with arr := { ch.arr with staging := ch.arr.staging ++ stageParts p 0 0 0 (epCount p) e.tag true } }

/-- An endpoint in host memory with Bus Master Enable 0 (R352). -/
def needsHost (ch : Chan) (cs : List Word) : Bool :=
  !(engineCtl ch).bme && (decide (cDst cs = 0) || decide (cOp cs = 1 ∧ cSrc cs = 0)) && decide (wordLen cs ≠ 0)

/-- A COPY starts. The Mill is asked again, since it may have halted after the fetch (R291). -/
def startCopy (clash : List Nat) (ch : Chan) (e : Entry) : Chan :=
  let cs := e.cells
  if wordLen cs = 0 then finish ch e.tag 0 0
  else if checkMill ch.mill cs then finish ch e.tag 6 0
  else if needsHost ch cs then finish ch e.tag 5 0
  else if cSrc cs = 0 then hostAsk ch e 0
  else if cSrc cs = 4 then planesOut ch e
  else
    let r := readSpace ch (cSrc cs) (cSrcAddr cs) (wordLen cs)
    deliver r.1 e clash r.2.1 r.2.2

/-- RACK_COPY (R261); a copy from host memory waits while the port can send no read (R339). Words of DMEM in `clash` meet a
port A write in the cycle of their first write (R237). -/
def execRackCopy (c : Ch) (tag : Nat) (clash : List Nat) (s : State) : Host.Outcome State Fault Refusal :=
  let fromHost := (entryAt (s.chan c) tag).any fun e => decide (cSrc e.cells = 0 ∧ wordLen e.cells ≠ 0)
  if !fromHost || mayRead s then onChan c (startEntry 1 tag (startCopy clash)) s else .next s

/-- PATTERN repeated: byte `k` of the destination, or of each plane element, takes byte `k` mod 4 (R261). -/
def fillBytes (cs : List Word) : List Byte :=
  let size := if hasPlanes cs then epSize (planeEnd (cellOf cs 7) (cellOf cs 8)) else wordLen cs
  (List.range (wordLen cs)).map fun k => (cPattern cs).extractLsb' (8 * (k % size % 4)) 8

/-- A FILL starts. -/
def startFill (clash : List Nat) (ch : Chan) (e : Entry) : Chan :=
  if wordLen e.cells = 0 then finish ch e.tag 0 0
  else if checkMill ch.mill e.cells then finish ch e.tag 6 0
  else if needsHost ch e.cells then finish ch e.tag 5 0
  else deliver ch e clash (fillBytes e.cells) none

/-- RACK_FILL (R261). -/
def execRackFill (c : Ch) (tag : Nat) (clash : List Nat) (s : State) : Host.Outcome State Fault Refusal :=
  onChan c (startEntry 2 tag (startFill clash)) s

/-! ### Host data (R264, R339, R449) -/

/-- Data for an entry's host source has come: byte-addressed destinations take it at once, and others keep it until all
has come. Words of DMEM in `clash` meet a port A write in the cycle of their first write (R237). -/
def hostData (clash : List Nat) (ch : Chan) (e : Entry) (off upto : Nat) (bs : List Byte) : Chan :=
  let cs := e.cells
  let bs := bs.take (upto - off)
  let d := cDst cs
  let whole := decide (d = 4 ∨ d = 5 ∨ d = 6 ∨ d = 7)
  let off' := off + bs.length
  let r := if whole then (setEntry ch e.tag fun e => { e with buf := e.buf ++ bs }, none) else dataOut ch e clash off bs
  match r.2 with
  | some g => finish r.1 e.tag (stopStatus d) g
  | none =>
    if off' ≥ wordLen cs then
      (if whole then deliver r.1 e clash (e.buf ++ bs) none else finish r.1 e.tag 0 0)
    else if off' ≥ upto then
      (if needsHost r.1 cs then finish r.1 e.tag 5 off' else hostAsk r.1 e off')
    else setEntry r.1 e.tag fun e => { e with state := .hostRead off' upto }

/-- The host answers a read of the racking engine with data. -/
def hostBytes (clash : List Nat) (ch : Chan) (e : Entry) (bs : List Byte) : Chan :=
  match e.state with
  | .reading =>
    let all := (e.buf ++ bs).take 64
    setEntry ch e.tag fun e => if all.length < 64 then { e with buf := all } else cellsArrive ch.mill e (cellsOf all)
  | .hostRead off upto => hostData clash ch e off upto bs
  | _ => ch

/-- The host answers a read with an error, or it times out: HOST_ERR at the failed completion (R264, R449). -/
def hostFailed (ch : Chan) (e : Entry) : Chan :=
  match e.state with
  | .reading => setEntry ch e.tag fun e => unread e 5
  | .hostRead off _ => finish ch e.tag 5 off
  | _ => ch

/-- The read that an entry waits for, if its channel takes host data. -/
def hostWaiter (ch : Chan) (tag : Nat) : Option Entry := if memoriesClocked ch then entryAt ch tag else none

/-- A read completion for the channel. -/
def hostCompletion (tag : Nat) (a : HostAns) (clash : List Nat) (ch : Chan) : Chan :=
  match hostWaiter ch tag with
  | none => ch
  | some e =>
    match a with
    | .data bs => if bs = [] then ch else hostBytes clash ch e bs
    | .unsupported => hostFailed ch e
    | .abort => hostFailed ch e
    | .poisoned => hostFailed ch e

/-! ### Plane staging (R62) -/

/-- Every code word is wholly in the mask or wholly outside it (R54). -/
def maskWhole (m : BitVec 16384) : Bool :=
  (List.range 256).all fun h => decide (m.extractLsb' (64 * h) 64 = 0 ∨ m.extractLsb' (64 * h) 64 = BitVec.allOnes 64)

/-- The code words of a plane that a part covers. -/
def partWords (s : Staged) : List Nat :=
  ((List.range 256).filter fun h => decide (s.mask.extractLsb' (64 * h) 64 ≠ 0)).map fun h =>
    16 * (128 * (s.tun / 8) + h / 2) + 2 * (s.tun % 8) + h % 2

/-- The staging buffer of a tun: four tun planes. What comes after them waits in the racking engine, which has paused that
transfer; an outbound plane that has been read has left for it (R62). (DESIGN CHOICE, log 32) -/
def stagingBuffer (ch : Chan) (tun : Nat) : List Staged :=
  (ch.arr.staging.filter fun s => decide (s.tun = tun) && !s.done).take 4

/-- The next part of a tun that may be written or read: the oldest in its buffer that covers whole code words. -/
def nextPart (ch : Chan) (tun : Nat) : Option Staged := (stagingBuffer ch tun).find? fun s => maskWhole s.mask

/-- Write a part into plane memory: whole code words, with fresh check bits (R54). -/
def writePart (ch : Chan) (s : Staged) : Chan :=
  let m := placeTun s.tun s.mask
  let ws := partWords s
  let ch := setPlane ch s.plane ((planeOf ch s.plane &&& ~~~m) ||| placeTun s.tun s.data)
  let ch := notePlane ch s.plane (fun t => decide (t = s.tun))
    (if s.mask = BitVec.allOnes 16384 then .same else .mixed)
  { ch with arr := { ch.arr with
    marks := ch.arr.marks.filter fun x => decide (x.plane ≠ s.plane ∨ x.word ∉ ws)
    writeback := ch.arr.writeback.filter fun x => decide (x.1 ≠ s.plane ∨ x.2 ∉ ws)
    staging := ch.arr.staging.erase s
    verify := if guarded ch then (ch.arr.verify ++ [4096 * s.tun + s.plane]).eraseDups else ch.arr.verify } }

/-- The element of the first PE of a code word. -/
def wordElem (p : PlaneEnd) (w : Nat) : Nat := epElem p (w / 16) (64 * (w % 16))

/-- Read a part of an outbound transfer: single-bit errors are corrected, and an uncorrectable code word stops the
transfer with POISON at its first element (R55, R56, R264). -/
def readPart (ch : Chan) (s : Staged) : Chan :=
  let ws := partWords s
  let ch := readWordCes ch s.plane ws
  match (planeUes ch s.plane).find? (· ∈ ws), entryAt ch s.tag with
  | some w, some e =>
    let p := planeEnd (cellOf e.cells 7) (cellOf e.cells 8)
    let ch := finish (reportPlaneUe ch s.plane w) s.tag 4 (wordElem p w * epSize p)
    { ch with arr := { ch.arr with staging := ch.arr.staging.filter fun x => decide (x.tag ≠ s.tag) } }
  | _, _ =>
    { ch with arr := { ch.arr with
      staging := ch.arr.staging.map fun x =>
        if x = s then { s with done := true, data := takeTun s.tun (planeOf ch s.plane) &&& s.mask } else x } }

/-- The transfer with a tag has no part left to write. -/
def stagingDone (ch : Chan) (tag : Nat) : Bool := !ch.arr.staging.any fun x => decide (x.tag = tag)

/-- Inbound data of a packet is visible (R327). -/
def inboundVisible (ch : Chan) (p : Packet) : Chan := if pNotify p then holdNote ch p else respond ch p 0

/-- Data with a staging key is at the engines. -/
def atLanes (ch : Chan) (key : Nat) : Bool := ch.mill.jobs.any fun j => decide (j.key = key)

/-- Inbound plane writes that have become visible, and have seen their frame checks, are acknowledged (R278, R279, R307,
R327). -/
def answerHeld (ch : Chan) : Chan :=
  let ready := fun (h : Packet × Nat) =>
    stagingDone ch (inboundKey h.1) && !atLanes ch (inboundKey h.1) && decide (h.2 ≤ ch.mill.checks)
  ((ch.rack.held.filter ready).map (·.1)).foldl inboundVisible
    { ch with rack := { ch.rack with held := ch.rack.held.filter fun h => !ready h } }

/-- A transfer whose last part has been written is finished. (DESIGN CHOICE, log 108) -/
def afterWrite (ch : Chan) (tag : Nat) : Chan :=
  if stagingDone ch tag then
    (match entryAt ch tag with
    | some _ => finish ch tag 0 0
    | none => answerHeld ch)
  else ch

/-- One idle micro-cycle of a tun: a write-back comes first, then GUARDED read-back, then staging (R62, R403).
(DESIGN CHOICE, log 32) -/
def stagingAccess (tun : Nat) (ch : Chan) : Chan :=
  if planeFree ch tun = false ∨ backPending ch tun = true ∨ verifyPending ch tun = true then ch
  else
    match nextPart ch tun with
    | none => ch
    | some s =>
      let ch := useIdle tun { ch with mem := { ch.mem with waking := false } }
      if s.out then readPart ch s else afterWrite (writePart ch s) s.tag

/-- PLANE_STAGING_ACCESS (R62). -/
def execPlaneStagingAccess (c : Ch) (tun : Fin 64) (s : State) : Host.Outcome State Fault Refusal :=
  onChan c (stagingAccess tun.val) s

/-! ### Retries of dropped words (R238) -/

/-- A dropped word is written again; when it drops once more it stays lost. -/
def dmemRetry (tag : Nat) (lands : Bool) (ch : Chan) : Chan :=
  match if memoriesClocked ch then entryAt ch tag else none with
  | none => ch
  | some e =>
    match e.retry with
    | [] => ch
    | w :: rest =>
      let ch := setEntry ch tag fun e => { e with retry := rest }
      if lands then
        let d := putDmem ch w.word w.data w.mask w.win
        if d.2 then d.1 else finish (reportDmemUe ch (4 * w.word)) tag 4 w.off
      else loseRack (setEntry ch tag fun e => { e with lost := true })

/-- DMEM_WRITE_RETRY (R238). -/
def execDmemWriteRetry (c : Ch) (tag : Nat) (lands : Bool) (s : State) : Host.Outcome State Fault Refusal :=
  onChan c (dmemRetry tag lands) s

/-! ### The end of a transfer (R274) -/

/-- The parts of an outbound transfer. -/
def partsOf (ch : Chan) (tag : Nat) : List Staged := ch.arr.staging.filter fun s => decide (s.tag = tag)

/-- The entry reads planes, and every part has been read. -/
def planesRead (ch : Chan) (e : Entry) : Bool :=
  decide (e.state = .moving) && decide (cOp e.cells = 1 ∧ cSrc e.cells = 4) && ((partsOf ch e.tag).all fun s => s.done)

/-- The planes that an entry read go to its word side, under FMT 1 through the Mill (R290). -/
def planesToWords (ch : Chan) (e : Entry) (clash : List Nat) : Chan :=
  let p := planeEnd (cellOf e.cells 7) (cellOf e.cells 8)
  let parts := partsOf ch e.tag
  let ch := { ch with arr := { ch.arr with staging := ch.arr.staging.filter fun s => decide (s.tag ≠ e.tag) } }
  if p.fmt then
    toLanes e.tag 0 (epCount p) p (gather p 32 parts) 32 true (setEntry ch e.tag fun e => { e with state := .atMill })
  else deliver ch e clash (natBytes (epBytes p) (gather p (epSize p) parts)) none

/-- Every write of the entry is visible: it is finished if it was still moving out of planes, or has its elements from the
Mill, and its completion entry is written once it may be. -/
def completeEntry (tag : Nat) (clash : List Nat) (ch : Chan) : Chan :=
  match if memoriesClocked ch then entryAt ch tag else none with
  | none => ch
  | some e =>
    let ch :=
      if planesRead ch e then planesToWords ch e clash
      else if e.state = .converted then deliver ch e clash e.buf none
      else ch
    match entryAt ch tag with
    | none => ch
    | some e => if postable ch e then postEntry ch e clash else ch

/-- TRANSFER_COMPLETE (R274). Words of DMEM in `clash` meet a port A write. -/
def execTransferComplete (c : Ch) (tag : Nat) (clash : List Nat) (s : State) : Host.Outcome State Fault Refusal :=
  onChan c (completeEntry tag clash) s

end Sys2Proof.Machine
end

