-- ==== Sys2Proof/Machine/Inbound.lean ====
section
/-! DEFINITION. Packets that other channels send to this one, the answers to its own, and the HBM scrub (R165, R277 to
R281, R285, R327, R329, R333, R404). -/

namespace Sys2Proof.Machine

/-! ### Who takes a packet -/

/-- The channels that take a packet addressed to a channel: itself in RUN or IDLE, or, in PAIRED mode, the members of
the pair that still run for packets to the even channel, and none for the odd one (R277, R404, R405).
(DEDUCED, log 92) -/
def takers (s : State) (c : Ch) : List Ch :=
  if (s.chan c).err.mode ≠ 2 then (if memoriesClocked (s.chan c) then [c] else [])
  else if c.val % 2 = 1 then []
  else [c, partnerOf c].filter fun d => memoriesClocked (s.chan d)

/-- Change one channel. -/
def State.onOne (s : State) (c : Ch) (f : Chan → Chan) : State := s.setChan c (f (s.chan c))

/-- The keg block of a channel that takes no packets answers one with reason 3, from its own place (R278, R333).
(DEDUCED, log 62) -/
def refusePacket (p : Packet) (ch : Chan) : Chan :=
  enterRouter ch
    { hdr := mkHeader { ch.keg with addr := ch.keg.own } 4 0 false (pSrc p) (pTag p) 0 0 3 0 0 0, flits := [] }

/-- A host access or an inbound packet ends IDLE (R416). -/
def wakeIdle (ch : Chan) : Chan := if ch.cstate = .idle then setCState ch .run else ch

/-- The next packet of a queue of channel `c` is taken by the channels that serve it; when none does, the keg block answers
it with reason 3, also under a capture-and-freeze (R278, R333, R409). A packet for both members of a pair waits for the
interior link between them (R404). `pop` splits the queue; the packet's input buffer is given back (R325). -/
def onPacket (c : Ch) (pop : Chan → Option (Packet × Chan)) (f : Packet → Chan → Chan) (s : State) :
    Host.Outcome State Fault Refusal :=
  match pop (s.chan c) with
  | none => .next s
  | some (p, ch) =>
    let s' := s.setChan c (settleCredit ch p)
    match takers s c with
    | [] => .next (s'.onOne c (refusePacket p))
    | ds =>
      if mirrorWaits s c ds then .next s
      else .next (ds.foldl (fun s d => s.onOne d fun ch => f p (wakeIdle ch)) s')

/-- The head of the inbound queue, if it is of a kind. (DEDUCED, log 62) -/
def popInbound (kind : Nat) (ch : Chan) : Option (Packet × Chan) :=
  match ch.rack.inq with
  | p :: rest => if pKind p = kind then some (p, { ch with rack := { ch.rack with inq := rest } }) else none
  | [] => none

/-- An answer of the host to a read of channel `c`: both members of a pair take what PF1 + 2k receives (R404). -/
def onAnswer (c : Ch) (f : Chan → Chan) (s : State) : Host.Outcome State Fault Refusal :=
  if (s.chan c).err.mode ≠ 2 then onChan c f s else .next ((takers s c).foldl (fun s d => s.onOne d f) s)

/-- HOST_READ_COMPLETION (R264). -/
def execHostReadCompletion (c : Ch) (tag : Nat) (a : HostAns) (clash : List Nat) (s : State) :
    Host.Outcome State Fault Refusal :=
  onAnswer c (hostCompletion tag a clash) s

/-! ### Inbound writes (R277 to R279) -/

/-- RACK_INBOUND and RACK_INWIN fields. -/
def hbmEn (ch : Chan) : Bool := bit ch.rack.inbound 0
def planesEn (ch : Chan) : Bool := bit ch.rack.inbound 1
def notifyEn (ch : Chan) : Bool := bit ch.rack.inbound 2
def notifyQp (ch : Chan) : Nat := fld ch.rack.inbound 8 8

/-- A notification is requested and cannot be given: reason 5. -/
def noteRefused (ch : Chan) (p : Packet) : Bool :=
  pNotify p && !(notifyEn ch && (qpAt ch (notifyQp ch)).enable)

/-- Every byte lies within RACK_INWIN, which counts in MiB. -/
def inWindow (ch : Chan) (addr n : Nat) : Bool :=
  decide (fld ch.rack.inwin 0 14 * 2 ^ 20 ≤ addr ∧ addr + n ≤ (fld ch.rack.inwin 16 14 + 1) * 2 ^ 20)

/-- The refusal reason of an HBM_WRITE, 0 when it is accepted. -/
def hbmRefusal (ch : Chan) (p : Packet) : Nat :=
  if hbmEn ch = false then 1
  else if inWindow ch (pAddr p) (pBytes p) = false then 2
  else if noteRefused ch p then 5
  else 0

/-- An inbound HBM_WRITE. One that meets an uncorrectable block with a part of it is not written and never becomes
visible, so it is not acknowledged (R283, R327). (DEDUCED, log 48; DEDUCED, log 50) -/
def inboundHbm (p : Packet) (ch : Chan) : Chan :=
  if hbmRefusal ch p ≠ 0 then refuseWrite ch p (hbmRefusal ch p)
  else
    let r := writeSpace ch 1 false [] 0 (pAddr p) (payloadBytes p)
    match r.fail with
    | some _ => dropNote r.ch p
    | none => inboundVisible r.ch p

/-- INBOUND_HBM_WRITE (R277). -/
def execInboundHbmWrite (c : Ch) (s : State) : Host.Outcome State Fault Refusal :=
  onPacket c (popInbound 1) inboundHbm s

/-- The endpoint, its mill format, or the bytes' place in it is not right. -/
def planeRefused (ch : Chan) (p : Packet) : Bool :=
  let e := packetEnd p
  epInvalid (hcell p 6) (hcell p 7) || epRange e
    || (e.fmt && !fmtAccepts ch.mill e.mfmt false e.width e.esize)
    || decide (pAddr p % epSize e ≠ 0 ∨ pBytes p % epSize e ≠ 0 ∨ pAddr p + pBytes p > epBytes e)

/-- The refusal reason of a PLANE_WRITE. (DEDUCED, log 48) -/
def planeRefusal (ch : Chan) (p : Packet) : Nat :=
  if planesEn ch = false then 1 else if planeRefused ch p then 4 else if noteRefused ch p then 5 else 0

/-- Parts of a plane that several packets bring together are staged as one (R54, R259). -/
def mergePart (staging : List Staged) (x : Staged) : List Staged :=
  let same := fun (s : Staged) => decide (s.tun = x.tun ∧ s.plane = x.plane ∧ s.tag = x.tag) && !s.out
  if staging.any same then
    staging.map fun s => if same s then { s with data := (s.data &&& ~~~x.mask) ||| x.data, mask := s.mask ||| x.mask } else s
  else staging ++ [x]

/-- The first element that a packet carries, and the one after its last. -/
def packetLo (p : Packet) : Nat := pAddr p / epSize (packetEnd p)
def packetHi (p : Packet) : Nat := (pAddr p + pBytes p) / epSize (packetEnd p)

/-- The elements of a packet are staged, at `stride` bytes an element of `w`. -/
def stagePacket (p : Packet) (w stride : Nat) (ch : Chan) : Chan :=
  let parts := stageParts (packetEnd p) w stride (packetLo p) (packetHi p) (inboundKey p) false
  let ch := wakePlanes ch
  let ch := { ch with arr := { ch.arr with staging := parts.foldl mergePart ch.arr.staging } }
  if parts = [] then answerHeld ch else ch

/-- An inbound PLANE_WRITE is staged as a local transfer is, under FMT 1 once its elements have passed through the Mill; its
acknowledgement waits (R62, R277, R290). -/
def inboundPlane (p : Packet) (ch : Chan) : Chan :=
  if planeRefusal ch p ≠ 0 then refuseWrite ch p (planeRefusal ch p)
  else
    let e := packetEnd p
    let w := bytesNat (payloadBytes p) * 2 ^ (8 * pAddr p)
    let ch := { ch with rack := { ch.rack with held := ch.rack.held ++ [(p, 0)] } }
    if e.fmt ∧ packetLo p < packetHi p then toLanes (inboundKey p) (packetLo p) (packetHi p) e w (epSize e) false ch
    else stagePacket p w (epSize e) ch

/-- INBOUND_PLANE_WRITE (R277). -/
def execInboundPlaneWrite (c : Ch) (s : State) : Host.Outcome State Fault Refusal :=
  onPacket c (popInbound 2) inboundPlane s

/-! ### Notifications (R279) -/

/-- A transfer still has packets that wait to be written. -/
def transferOpen (ch : Chan) (n : Note) : Bool :=
  (ch.rack.inq ++ ch.rack.held.map (·.1)).any fun p => decide (pSrc p = n.src ∧ pTag p = pTag n.pkt)

/-- The transfer's last byte is visible. A plane endpoint gives the length of its transfer. An HBM_WRITE that ends short of a
512-byte boundary is its transfer's last (R323); for one that ends on a boundary the header says nothing, and `ended` says
that no more comes. (DESIGN CHOICE, log 124) -/
def noteWhole (ch : Chan) (ended : Bool) (n : Note) : Bool :=
  !n.refused && !transferOpen ch n
    && (if pKind n.pkt = 2 then decide (n.bytes ≥ epBytes (packetEnd n.pkt))
      else ended || decide ((pAddr n.pkt + pBytes n.pkt) % 512 ≠ 0))

/-- The oldest notification whose transfer is whole is written into the CQ of queue pair NQ when a slot is free, and its
packet is acknowledged. A queue pair that has been disabled since refuses it. (DEDUCED, log 47) -/
def notifyWrite (ended : Bool) (clash : List Nat) (ch : Chan) : Chan :=
  if memoriesClocked ch = false then ch
  else
    match ch.rack.notes.find? (noteWhole ch ended) with
    | none => ch
    | some n =>
      let q := notifyQp ch
      let p := qpAt ch q
      let left := { ch with rack := { ch.rack with notes := ch.rack.notes.erase n } }
      if noteRefused ch n.pkt then respond left n.pkt 5
      else if reserved ch q + 2 > qpDepth p ∨ (p.dmemRing || (engineCtl ch).bme) = false then ch
      else
        postCells left clash
          (fldAt n.cid.toNat 0 ||| fldAt p.sqHead.toNat 16) (0x10#32 ||| fldAt n.sqid.toNat 16) (n.src.setWidth 32)
          { q := q, tag := none, words := [], count := false, err := false, ack := some n.pkt }

/-- INBOUND_NOTIFY_WRITE (R279): the row occurs after the last byte of the transfer is visible. -/
def execInboundNotifyWrite (c : Ch) (ended : Bool) (clash : List Nat) (s : State) : Host.Outcome State Fault Refusal :=
  onChan c (notifyWrite ended clash) s

/-! ### Answers to this channel's packets (R278, R329) -/

/-- An image was refused or its answer did not come: XFAIL and line 10 (R329). -/
def imageFailed (ch : Chan) : Chan := raiseLine { ch with keg := { ch.keg with xfail := true } } 10

/-- A remote transfer ends with an error; the spec gives no ERR_OFFSET for one, so AUX is a free value.
(DESIGN CHOICE, log 49) -/
def remoteFailed (ch : Chan) (tag : Nat) (st : Byte) (reason : Nat) : Chan :=
  let d := drawFree ch
  setEntry d.2 tag fun e => { e with state := .finished st reason (Config.freeWord d.1) }

/-- A packet of a transfer of the channel with a global address. -/
def ownPacket (addr : Half) (tag : Nat) (p : Packet) : Bool :=
  decide (pSrc p = addr ∧ pTag p = tag ∧ (pKind p = 1 ∨ pKind p = 2))

/-- The router of a channel without the packets of a transfer that it has not begun to send (R278). -/
def withdraw (addr : Half) (tag : Nat) (ch : Chan) : Chan :=
  { ch with keg := { ch.keg with
    links := ch.keg.links.map fun l => { l with tx := l.tx.filter fun p => !ownPacket addr tag p } } }

/-- How many those are. -/
def waitingPackets (addr : Half) (tag : Nat) (ch : Chan) : Nat :=
  ((ch.keg.links.toList.flatMap fun l => l.tx).filter (ownPacket addr tag)).length

/-- The packets of a transfer among a member's outputs that have not been compared: they have not been sent (R404). -/
def heldCopies (ch : Chan) (tag : Nat) : List PairOut :=
  ch.err.copies.filter fun x =>
    match x with
    | .packet p => ownPacket ch.keg.addr tag p
    | _ => false

/-- One acknowledgement of an entry has come; the last one finishes it. From a refusal on, no further packet is sent: `w` of
them have been withdrawn from the router, and those that have not been compared are dropped too. -/
def ackEntry (ch : Chan) (e : Entry) (reason w : Nat) : Chan :=
  let refused := match e.refused with
    | some r => some r
    | none => if reason = 0 then none else some reason
  let own := if refused.isSome then heldCopies ch e.tag else []
  let ch := { ch with err := { ch.err with copies := ch.err.copies.filter fun x => !own.contains x } }
  let gone := own.length + (if refused.isSome then w else 0)
  let ch := setEntry ch e.tag fun e => { e with acks := e.acks - 1 - gone, refused := refused }
  if e.acks ≤ 1 + gone then
    match refused with
    | some r => remoteFailed ch e.tag 7 r
    | none => finish ch e.tag 0 0
  else ch

/-- Two addresses name one channel: each coordinate is taken modulo its ring size (R312). -/
def sameChannel (k : Keg) (a b : Half) : Bool := [0, 1, 2].all fun d => decide (coord k a d = coord k b d)

/-- The transfer of a channel that a RESPONSE answers. -/
def answered (ch : Chan) (p : Packet) : Option Entry :=
  (entryAt ch (pTag p)).filter fun e =>
    decide (e.state = .moving ∧ e.acks ≠ 0) && sameChannel ch.keg (cRch e.cells) (pSrc p)

/-- A RESPONSE is consumed by the transfer or the image send that it answers; `w` packets of the transfer have been withdrawn
from the router. -/
def takeResponse (p : Packet) (w : Nat) (ch : Chan) : Chan :=
  if pTag p ≥ 0x800 then
    match ch.rack.xtags.find? fun x => decide (x.1 = pTag p) && sameChannel ch.keg x.2 (pSrc p) with
    | some x =>
      let ch := { ch with rack := { ch.rack with xtags := ch.rack.xtags.erase x } }
      if pReason p = 0 then ch else imageFailed ch
    | none => ch
  else
    match answered ch p with
    | none => ch
    | some e => ackEntry ch e (pReason p) w

/-- The head of the response queue. -/
def popResponse (ch : Chan) : Option (Packet × Chan) :=
  match ch.rack.responses with
  | p :: rest => some (p, { ch with rack := { ch.rack with responses := rest } })
  | [] => none

/-- The RESPONSE refuses a packet of a transfer of channel `d`, or follows one that did. -/
def refuses (p : Packet) (s : State) (d : Ch) : Bool :=
  decide (pTag p < 0x800) && (answered (s.chan d) p).any fun e => decide (pReason p ≠ 0) || e.refused.isSome

/-- The channels whose routers send the packets of channel `c`: its own, and in a pair those of both members (R404). -/
def routersOf (s : State) (c : Ch) : List Ch := if (s.chan c).err.mode = 2 then [c, partnerOf c] else [c]

/-- A RESPONSE is taken by the channels that serve it; a refusal withdraws the packets that their routers have not begun to
send (R278). -/
def takeAnswer (c : Ch) (p : Packet) (s : State) : State :=
  let ds := takers s c
  let addr := (s.chan c).keg.addr
  let rs := if ds.any (refuses p s) then routersOf s c else []
  let w := (rs.map fun d => waitingPackets addr (pTag p) (s.chan d)).sum
  ds.foldl (fun s d => s.onOne d (takeResponse p w)) (rs.foldl (fun s d => s.onOne d (withdraw addr (pTag p))) s)

/-- RESPONSE_RECEIVE (R278): responses are always consumed at the origin (R325), whether or not it still runs. The keg block
of a frozen channel that is not fenced gives their buffers back, and its engine takes them when its clocks go on (R409). -/
def execResponseReceive (c : Ch) (s : State) : Host.Outcome State Fault Refusal :=
  if frozen (s.chan c) ∧ (s.chan c).cstate ≠ .fenced then
    .next (s.onOne c fun ch => ch.rack.responses.foldl settleCredit ch)
  else
    match popResponse (s.chan c) with
    | none => .next s
    | some (p, ch) => .next (takeAnswer c p (s.setChan c (wakeIdle (settleCredit ch p))))

/-- An acknowledgement stays outstanding for RACK_RTIMEOUT; 0 waits indefinitely (R278, R329). -/
def rtimeoutExpire (tag : Nat) (ch : Chan) : Chan :=
  if memoriesClocked ch = false ∨ ch.rack.rtimeout = 0 then ch
  else if tag ≥ 0x800 then
    match ch.rack.xtags.find? fun x => decide (x.1 = tag) with
    | none => ch
    | some x => imageFailed { ch with rack := { ch.rack with xtags := ch.rack.xtags.erase x } }
  else
    match entryAt ch tag with
    | none => ch
    | some e => if e.state = .moving ∧ e.acks ≠ 0 then remoteFailed ch tag 8 0 else ch

/-- RACK_RTIMEOUT_EXPIRE (R278, R329). -/
def execRackRtimeoutExpire (c : Ch) (tag : Nat) (s : State) : Host.Outcome State Fault Refusal :=
  onChan c (rtimeoutExpire tag) s

/-! ### Images (R165, R329) -/

/-- The head of the image queue. -/
def popImage (ch : Chan) : Option (Packet × Chan) :=
  match ch.rack.images with
  | p :: rest => some (p, { ch with rack := { ch.rack with images := rest } })
  | [] => none

/-- An image is added to the receive bank and acknowledged. -/
def inboundImage (p : Packet) (ch : Chan) : Chan := respond (bankAdd ch (packetImage p)) p 0

/-- INBOUND_IMAGE (R165). -/
def execInboundImage (c : Ch) (s : State) : Host.Outcome State Fault Refusal := onPacket c popImage inboundImage s

/-! ### HBM scrub and refresh (R282, R285) -/

/-- The blocks of a stack. -/
def hbmBlocks : Nat := 2 ^ 29

/-- Scrub reads a block: a corrected one is written back, an uncorrectable one raises MCHK EVENT; the last block ends a
pass. (UNVERIFIED, log 15; DEDUCED, log 51) -/
def hbmScrub (b : Nat) (ch : Chan) : Chan :=
  if memoriesClocked ch = false ∨ b ≥ hbmBlocks then ch
  else
    let ch :=
      match hbmMark ch b with
      | none => ch
      | some m =>
        if m.ue then raiseMchk (hbmFound ch b) 2
        else
          let ch := hbmCorrect ch b
          { ch with hbm := { ch.hbm with marks := ch.hbm.marks.filter fun x => decide (x.block ≠ b) } }
    if b + 1 = hbmBlocks then { ch with hbm := { ch.hbm with passes := ch.hbm.passes + 1 } } else ch

/-- HBM_SCRUB_READ (R285). -/
def execHbmScrubRead (c : Ch) (block : Nat) (s : State) : Host.Outcome State Fault Refusal :=
  onChan c (hbmScrub block) s

/-- HBM_REFRESH: refresh changes no value that anything reads (R282, R285). -/
def execHbmRefresh (c : Ch) (s : State) : Host.Outcome State Fault Refusal := onChan c (fun ch => ch) s

end Sys2Proof.Machine
end

