-- ==== Sys2Proof/Machine/Mill.lean ====
section
/-! DEFINITION. The Mill's scrub, halt, resets, events and tap lanes (R295 to R300, R303, R305 to R307). -/

namespace Sys2Proof.Machine

/-- A change of MILL_CTL.URESET: reset tree 1 holds its flip-flops at RVAL while it is 1. -/
def setUreset (m : Mill) (on : Bool) : Mill :=
  { m with
    ureset := on
    ffs := if on then m.cfg.foldl (fun acc p =>
        if bit p.2 194 then (acc &&& ~~~(ffBit true p.1)) ||| ffBit (bit p.2 195) p.1 else acc) m.ffs
      else m.ffs }

/-- MILL_CTL_URESET: a write of MILL_CTL (R298). -/
def execMillCtlUreset (c : Ch) (v : Word) (s : State) : Host.Outcome State Fault Refusal :=
  onChan c (whileClocked fun ch => setMill ch fun m => setUreset m (bit v 0)) s

/-! ### Scrub (R305) -/

/-- The global section as it stands is as it was loaded. -/
def globalGood (now was : MillImage) : Bool :=
  decide (now.clk = was.clk ∧ now.rate = was.rate ∧ now.ramCfg = was.ramCfg ∧ now.fmts = was.fmts)

/-- Frame `k` as it stands matches the image that was loaded: 0 to 2,047 are the cell frames; 2,048 is the global
section. -/
def frameGood (m : Mill) (k : Nat) : Bool :=
  match m.loaded, m.image with
  | some i, some now =>
    if k ≥ 2048 then globalGood now i
    else (List.range 16).all fun j =>
      let c := cellIx (k / 32) (16 * (k % 32) + j)
      decide (cellRec m.cfg c = cellRec i.cells c)
  | _, _ => true

/-- The scrub checks its next frame; an inbound FMT 1 write that waited for it is acknowledged (R307). -/
def scrubCheck (ch : Chan) : Chan :=
  if millRuns ch = false then ch
  else if frameGood ch.mill ch.mill.scrubAt then
    answerHeld (setMill ch fun m => { m with
      scrubAt := if m.scrubAt ≥ 2048 then 0 else m.scrubAt + 1
      checks := m.checks + 1
      scrub := if m.scrubAt ≥ 2048 then satInc m.scrub 1 else m.scrub })
  else millHalt false ch

/-- MILL_SCRUB_CHECK (R305). -/
def execMillScrubCheck (c : Ch) (s : State) : Host.Outcome State Fault Refusal := onChan c scrubCheck s

/-- A block RAM reads: it is enabled, and its clock tree runs (R296). -/
def ramReads (ch : Chan) (b : Nat) : Bool :=
  bit (ramCfgOf ch.mill b) 2 && treeRuns ch (fld (ramCfgOf ch.mill b) 0 2)

/-- MILL_PARITY_ERROR: a read of a block RAM finds a parity error (R296, R306). -/
def execMillParityError (c : Ch) (b : Fin 64) (s : State) : Host.Outcome State Fault Refusal :=
  onChan c (fun ch => if ramReads ch b.val then millHalt true ch else ch) s

/-! ### Events (R295) -/

/-- The clock tree of the cell that drives an EVENT port. -/
def eventTree (m : Mill) (n : Nat) : Nat := fld (cellRec m.cfg (cellIx n 352)) 192 2

/-- The sample of an EVENT port, taken on the clock tree of the cell that drives it, goes from 0 to 1. -/
def eventEdge (n : Nat) (ch : Chan) : Chan :=
  if treeRuns ch (eventTree ch.mill n) = false then ch
  else
    let r := sampleEvents ch.mill (lanesNow ch.mill) [n]
    raiseEvents (setMill ch fun _ => r.1) r.2

/-- MILL_EVENT_EDGE (R295). -/
def execMillEventEdge (c : Ch) (n : Fin 16) (s : State) : Host.Outcome State Fault Refusal :=
  onChan c (eventEdge n.val) s

/-! ### Tap lanes (R299, R300) -/

/-- The receiver works: the channel is powered and its clocks are not frozen. -/
def tapAlive (ch : Chan) : Bool :=
  !frozen ch && (decide (ch.cstate = .run) || decide (ch.cstate = .idle) || decide (ch.cstate = .fenced))

/-- TAP_LOCK: clock recovery locks (R300). -/
def execTapLock (c : Ch) (s : State) : Host.Outcome State Fault Refusal :=
  onChan c (fun ch => if tapAlive ch then setMill ch fun m => { m with lock := true } else ch) s

/-- A loss of LOCK sets LOCK_LOST and raises line 9. -/
def tapLost (ch : Chan) : Chan :=
  if tapAlive ch && ch.mill.lock then
    raiseLine (setMill ch fun m => { m with lock := false, lockLost := true }) 9
  else ch

/-- TAP_LOCK_LOST (R300). -/
def execTapLockLost (c : Ch) (s : State) : Host.Outcome State Fault Refusal := onChan c tapLost s

/-- A change of SIGDET sets SIGDET_CHG and raises line 9. -/
def sigdetChange (ch : Chan) : Chan :=
  if tapAlive ch then raiseLine (setMill ch fun m => { m with sigdet := !m.sigdet, sigdetChg := true }) 9 else ch

/-- TAP_SIGDET_CHANGE (R300). -/
def execTapSigdetChange (c : Ch) (s : State) : Host.Outcome State Fault Refusal := onChan c sigdetChange s

/-! ### Clock trees (R297) -/

/-- The word that comes from the receiver, through loopback and polarity. -/
def rxWord (m : Mill) (line : BitVec 64) : BitVec 64 :=
  let x := if bit m.tapCtl 4 then m.tx.getD line else line
  if bit m.tapCtl 3 then ~~~x else x

/-- `n` bits of PRBS31, x^31 + x^28 + 1, the first one lowest, and the generator after them. (PRESUMED, log 118) -/
def prbsBits : Nat → BitVec 31 → Nat × BitVec 31
  | 0, p => (0, p)
  | n + 1, p =>
    let b := p.getLsbD 30 != p.getLsbD 27
    let r := prbsBits n ((p <<< 1) ||| BitVec.ofNat 31 (b2n b))
    (b2n b + 2 * r.1, r.2)

/-- The phase of PRBS31 when it starts, which the spec leaves open: any but 0, which the sequence never holds. -/
def prbsStart (x : BitVec 31) : BitVec 31 := if x = 0 then 1 else x

/-- The word that the transmitter sends (R300): none in electrical idle, TAP_TX, or PRBS31. -/
def sendTap (ch : Chan) : Chan :=
  let m := ch.mill
  let pol := fun (x : BitVec 64) => if bit m.tapCtl 2 then ~~~x else x
  if bit m.tapCtl 0 = false then setMill ch fun m => { m with tx := none }
  else if bit m.tapCtl 5 then
    let d := if m.prbs = 0 then drawFree ch else (0, ch)
    let r := prbsBits 64 (if m.prbs = 0 then prbsStart ((Config.freeWord d.1).setWidth 31) else m.prbs)
    setMill d.2 fun m => { m with tx := some (pol (BitVec.ofNat 64 r.1)), prbs := r.2 }
  else setMill ch fun m => { m with tx := some (pol (BitVec.ofNat 64 (driverWord m (lanesNow m) 63 352 64))) }

/-- A soft error strikes the Mill (R294, R305, R306). -/
def strikeMill (m : Mill) (u : MillUpset) : Mill :=
  let onImage := fun (f : MillImage → MillImage) => { m with image := m.image.map f }
  match u with
  | .cell k r => { m with cfg := sparseSet 0 m.cfg (k % 32768) r }
  | .ram a w => { m with ram := sparseSet 0 m.ram (a % 65536) w }
  | .clk i w => onImage fun x => { x with clk := x.clk.set i.val w }
  | .rate w => onImage fun x => { x with rate := w }
  | .ramCfg b c => onImage fun x => { x with ramCfg := x.ramCfg.set b.val c }
  | .fmt f e => onImage fun x => { x with fmts := x.fmts.set f.val e }

/-! ### The end of a transfer's passage (R290, R307) -/

/-- The bytes of an outbound transfer, from results at 32 bytes an element. -/
def jobBytes (p : PlaneEnd) (w : Nat) : List Byte :=
  (List.range (epCount p)).flatMap fun k => natBytes (epSize p) (elemOf w 32 k)

/-- The inbound packet whose elements a job carried. -/
def jobPacket (ch : Chan) (j : MillJob) : Option Packet :=
  (ch.rack.held.map (·.1)).find? fun p =>
    (packetEnd p).fmt && decide (inboundKey p = j.key ∧ packetLo p = j.lo ∧ packetLo p < packetHi p)

/-- Every element of a job has passed: an inbound transfer or packet is staged, and an outbound one has its bytes, once the
frame checks of R307 that start now have passed. -/
def endJob (ch : Chan) (j : MillJob) : Chan :=
  let ch := setMill ch fun m => { m with jobs := m.jobs.erase j }
  match entryAt ch j.key with
  | some e =>
    let p := planeEnd (cellOf e.cells 7) (cellOf e.cells 8)
    if j.out then
      setEntry ch j.key fun e => { e with state := .converted, buf := jobBytes p j.words, mark := markNow ch p }
    else stagePlanes ch e j.words 32
  | none =>
    match jobPacket ch j with
    | some p =>
      stagePacket p j.words 32 { ch with rack := { ch.rack with
        held := ch.rack.held.map fun h => if h.1 = p then (p, markNow ch (packetEnd p)) else h } }
    | none => ch

/-- The jobs whose last result has come end, in their order. -/
def endJobs (ch : Chan) : Chan := (ch.mill.jobs.filter jobDone).foldl endJob ch

/-- The fabric and the lane pipelines at an edge of a clock tree that runs: flip-flops load, block RAMs read, and a parity
error halts the Mill (R290, R295 to R297). -/
def fabricEdge (tree : Nat) (ch : Chan) : Chan :=
  let lanes := lanesNow ch.mill
  if parityBad ch.mill lanes tree then millHalt true ch
  else
    let r := treeEdge ch.mill lanes tree
    endJobs (raiseEvents (setMill ch fun m => { r.1 with jobs := stepLanes m tree }) r.2)

/-- An edge of a clock tree, with the receive word and the transmit word of the tap lanes, which have clocks of their own and
work while the Mill is in RUN (R297, R300). -/
def clockEdge (tree : Nat) (rx : BitVec 64) (errs : Nat) (ch : Chan) : Chan :=
  if millRuns ch = false then ch
  else
    let ch := setMill ch fun m => { m with
      rx := rxWord m rx
      prbsErr := if bit m.tapCtl 6 then satInc16 m.prbsErr errs else m.prbsErr }
    let ch := if treeRuns ch tree then fabricEdge tree ch else ch
    if millRuns ch then sendTap ch else ch

/-- MILL_CLOCK_TREE_EDGE (R297), after the soft errors that have struck a Mill in RUN. -/
def execMillClockTreeEdge (c : Ch) (tree : Fin 4) (rx : BitVec 64) (errs : Nat) (ups : List MillUpset) (s : State) :
    Host.Outcome State Fault Refusal :=
  onChan c (fun ch =>
    clockEdge tree.val rx errs (if ch.mill.state = .run then setMill ch fun m => ups.foldl strikeMill m else ch)) s

end Sys2Proof.Machine
end

