-- ==== Sys2Proof/Machine/KegLink.lean ====
section
/-! DEFINITION. Keg ports: partners, negotiation, lanes, link-state reset and the discard limit (R310 to R316, R322,
R328, R332 to R336). -/

namespace Sys2Proof.Machine

/-! ### Ports -/

/-- A port with the fields that follow from its state: PSTATE reads 7 when it is not UP, ADDR is valid after a completed
negotiation, DOWNEV is set when it goes down, and only a port that negotiates carries traffic at a mode of before. A port
that PCFG.ENABLE holds down is DISABLED. (DEDUCED, log 58) -/
def settlePort (old new : Port) : Port :=
  let isDown := decide (new.state = .down) || decide (new.state = .disabled)
  let wasDown := decide (old.state = .down) || decide (old.state = .disabled)
  { new with
    pstate := if new.state = .up then new.pstate else 7
    pvalid := decide (new.state = .up) || decide (new.state = .miswired)
    downev := new.downev || (isDown && !wasDown)
    low := if new.state = .negotiating then new.low else none }

/-- A change of STATE, PSTATE or PMISMATCH, or the setting of a W1C bit. -/
def portChanged (old new : Port) : Bool :=
  decide (old.state ≠ new.state) || decide (old.pstate ≠ new.pstate) || (old.pmismatch != new.pmismatch)
    || (new.pchg && !old.pchg) || (new.renegd && !old.renegd) || (new.downev && !old.downev)

/-- Change a port, which raises line 10 when a program can see it in KEG_PSTAT (12, Registers). -/
def updPort (ch : Chan) (p : Nat) (f : Port → Port) : Chan :=
  let old := portAt ch p
  let new := settlePort old (f old)
  let ch := setPort ch p fun _ => new
  if portChanged old new then raiseLine ch 10 else ch

/-- The edge on the axis of a port: −X serves W, +X E, −Y N, +Y S (R310). -/
def portEdge (p : Nat) : Nat :=
  match p with
  | 0 => 3
  | 1 => 1
  | 2 => 0
  | _ => 2

/-- An address with one coordinate replaced. -/
def withCoord (a : Half) (dim v : Nat) : Half :=
  match dim with
  | 0 => BitVec.ofNat 16 (v * 1024 + gyOf a * 16 + gzOf a)
  | 1 => BitVec.ofNat 16 (gxOf a * 1024 + v * 16 + gzOf a)
  | _ => BitVec.ofNat 16 (gxOf a * 1024 + gyOf a * 16 + v)

/-- The expected partner: one ring step along the port's axis and direction (R312). -/
def expectedPartner (k : Keg) (p : Nat) : Half :=
  let dim := p / 2
  let s := ringSize k dim
  let o := coord k k.own dim
  withCoord k.own dim (if p % 2 = 1 then (o + 1) % s else (o + s - 1) % s)

/-- Two addresses name one place, each coordinate modulo its ring size (R312). -/
def samePlace (k : Keg) (a b : Half) : Bool := (List.range 3).all fun d => decide (coord k a d = coord k b d)

/-- The address lies on the port's axis line (R313). -/
def sameLine (k : Keg) (p : Nat) (a : Half) : Bool :=
  (List.range 3).all fun d => decide (d = p / 2) || decide (coord k a d = coord k k.own d)

/-- The state in which the port carries traffic: its own, or the one that it had when it began to negotiate under R334. -/
def portMode (ch : Chan) (p : Nat) : PState := (portAt ch p).low.getD (portAt ch p).state

/-- The port can carry frames. -/
def portTrained (ch : Chan) (p : Nat) : Bool := decide (portMode ch p = .up) || decide (portMode ch p = .miswired)

/-- The port carries edge-shift streams (R313): EDGE_ANY counts as the last negotiation took it (12, Registers). -/
def carriesEdges (ch : Chan) (p : Nat) : Bool :=
  decide (p < 4) && decide (portMode ch p = .up) && (!(portAt ch p).pmismatch || (portAt ch p).edgeOn)

/-- The port carries a routed packet: a MISWIRED one only management (R313). -/
def carriesPacket (ch : Chan) (p : Nat) (k : Packet) : Bool := decide (portMode ch p = .up) || decide (pKind k = 5)

/-! ### Negotiation (R314) -/

/-- A port whose bypass is open and that is enabled begins to negotiate. -/
def negotiate (p : Nat) (ch : Chan) : Chan :=
  if (portAt ch p).enable then updPort ch p fun q => { q with state := .negotiating } else ch

/-- A port that comes up, or retries, negotiates. -/
def negotiateDown (p : Nat) (ch : Chan) : Chan :=
  if (portAt ch p).state = .down then negotiate p ch else ch

/-- A port that works is renegotiated (R316). -/
def renegotiate (p : Nat) (ch : Chan) : Chan := if portTrained ch p then negotiate p ch else ch

/-- At the end of a DOZE, the channel's own or its partner's, a port is renegotiated and traffic flows on at one lane and
10.3125 Gb/s until that completes (R334). -/
def renegotiateLow (p : Nat) (ch : Chan) : Chan :=
  if portTrained ch p && (portAt ch p).enable then
    updPort ch p fun q => { q with low := some (portMode ch p), state := .negotiating }
  else ch

/-- A command of a port: the keg island is powered and the bypasses are open. A capture-and-freeze does not stop the keg
block (R409). -/
def onPort (c : Ch) (f : Chan → Chan) (s : State) : Host.Outcome State Fault Refusal :=
  if s.hub.supply.bypass = .opened then onChan c f s else .next s

/-- KEG_PORT_NEGOTIATE (R314). -/
def execKegPortNegotiate (c : Ch) (p : Fin 6) (s : State) : Host.Outcome State Fault Refusal :=
  onPort c (negotiateDown p.val) s

/-- KEG_NEGOTIATION_RETRY: a DOWN port tries again after 10 ms (R314). -/
def execKegNegotiationRetry (c : Ch) (p : Fin 6) (s : State) : Host.Outcome State Fault Refusal :=
  onPort c (negotiateDown p.val) s

/-- Lanes that a code names: 4, 2 or 1. -/
def laneCount (code : BitVec 2) : Nat := 4 / 2 ^ code.toNat

/-- The lanes good at a rate. -/
def goodAt (m : NegMsg) (rate : Nat) : BitVec 5 := m.good.toList.getD rate 0

/-- L of a rate: the largest of 4, 2 or 1 that does not exceed the good lanes, capped. -/
def rateLanes (m : NegMsg) (cap rate : Nat) : Nat :=
  let n := popNat 3 (goodAt m rate).toNat
  min cap (if n ≥ 4 then 4 else if n ≥ 2 then 2 else n)

/-- A rate in units of 100 kb/s. -/
def rateOf (rate : Nat) : Nat :=
  match rate with
  | 0 => 1120000
  | 1 => 560000
  | 2 => 265625
  | _ => 103125

/-- The rates tried, fastest first: the descent stops at the first one where L reaches the cap. -/
def ratesTried (m : NegMsg) (cap : Nat) : Nat → Nat → List Nat
  | 0, _ => []
  | n + 1, r => if rateLanes m cap r = cap then [r] else r :: ratesTried m cap n (r + 1)

/-- The better of two rates: the larger product of rate and lanes, and on a tie the larger L. -/
def betterRate (m : NegMsg) (cap a b : Nat) : Nat :=
  let x := rateOf a * rateLanes m cap a
  let y := rateOf b * rateLanes m cap b
  if y > x ∨ (y = x ∧ rateLanes m cap b > rateLanes m cap a) then b else a

/-- The `n` lowest lanes of a set. -/
def lowLanes (g : BitVec 5) (n : Nat) : BitVec 5 :=
  (((List.range 5).filter fun i => g.getLsbD i).take n).foldl (fun acc i => acc ||| BitVec.ofNat 5 (2 ^ i)) 0

/-- The code of a lane count. -/
def laneCode (n : Nat) : BitVec 2 := if n ≥ 4 then 0 else if n = 2 then 1 else 2

/-- The limits that a port negotiates with: one lane at 10.3125 Gb/s in DOZE, for both ends (R334). -/
def portLimits (ch : Chan) (p : Nat) : BitVec 2 × BitVec 2 :=
  if ch.cstate = .doze then (3, 2) else ((portAt ch p).maxRate, (portAt ch p).maxLanes)

/-- Both ends can work together: a lane is good at 10.3125 Gb/s and version 1 lies in the partner's range. -/
def canLink (m : NegMsg) : Bool := decide (goodAt m 3 ≠ 0) && decide (m.verLo.toNat ≤ 1 ∧ 1 ≤ m.verHi.toNat)

/-- The mode that both ends compute. -/
def negotiated (lim : BitVec 2 × BitVec 2) (m : NegMsg) (q : Port) : Port :=
  let start := max lim.1.toNat m.maxRate.toNat
  let cap := min (laneCount lim.2) (laneCount m.maxLanes)
  let tried := ratesTried m cap (4 - start) start
  let rate := tried.foldl (betterRate m cap) start
  let n := rateLanes m cap rate
  let active := lowLanes (goodAt m rate) n
  { q with
    rate := BitVec.ofNat 2 rate, lanes := laneCode n, active := active
    spare := lowLanes (goodAt m rate &&& ~~~active) 1, spareUsed := false
    fec := decide (rate < 2) || !(q.fecOffOk && m.fecOffOk), version := 1, bypHops := m.hops }

/-! ### Link-state reset (R322) -/

/-- The exporting side of an edge regains its credits and drops what was not acknowledged. -/
def resetExport (ch : Chan) (p : Nat) : Chan :=
  if p < 4 then
    setLink (setEdge ch (portEdge p) { edgeAt ch (portEdge p) with outstanding := 0 }) p dropEdges
  else ch

/-- The port resets its link state. The packets that wait for the port stay in the router; those that it has received go on
into the router, and give no credit to the new link. -/
def resetLink (ch : Chan) (p : Nat) : Chan :=
  let ch := resetExport ch p
  let ch := if p < 4 then setEdge ch (portEdge p) { edgeAt ch (portEdge p) with buf := [] } else ch
  let inside := (linkAt ch p).rxPackets
  let ch := setLink ch p fun l => { Link.reset with tx := l.tx, turn := l.turn, limited := l.limited }
  inside.foldl enterRouter { ch with keg := { ch.keg with owed := ch.keg.owed.filter fun o => decide (o.port ≠ p) } }

/-- The partner's channel state becomes known. A partner in reset empties its edge buffers, so the exporting side regains its
credits (R322, R333). -/
def knowCstate (p : Nat) (st : BitVec 3) (ch : Chan) : Chan :=
  let was := (portAt ch p).pknown
  let ch := setPort ch p fun q => { q with pknown := st }
  if st = 3 ∧ was ≠ 3 then resetExport ch p else ch

/-- A negotiation has completed: the port stays DOWN, or comes up with a partner that R313 classifies. A partner whose
address or session value has changed resets the link state, UCC 0x1A; an unchanged one lets the link continue (R316).
(DEDUCED, log 58) -/
def negotiationDone (p : Nat) (m : NegMsg) (ch : Chan) : Chan :=
  let q := portAt ch p
  if q.state ≠ .negotiating then ch
  else if canLink m = false then updPort ch p fun q => { q with state := .down }
  else
    let expected := samePlace ch.keg m.addr (expectedPartner ch.keg p)
    let line := sameLine ch.keg p m.addr
    let again := q.psession.isSome
    let changed := again && decide (q.partner ≠ m.addr ∨ q.psession ≠ some m.session)
    let ch := if changed then report (resetLink ch p) .ucc 0x1A (BitVec.ofNat 8 p) 0 else ch
    let ch := knowCstate p m.cstate ch
    let ch := setLink ch p fun l => { l with limited := l.limited && !(expected || line), replayed := 0 }
    updPort ch p fun q => { negotiated (portLimits ch p) m q with
      state := if expected || line then .up else .miswired
      edgeOn := q.edgeAny
      pmismatch := !expected && line
      pstate := m.cstate, partner := m.addr, psession := some m.session
      pchg := q.pchg || changed, renegd := q.renegd || again }

/-- The channel's state as CSTATE carries it (R317). -/
def cstateCode (ch : Chan) : BitVec 3 :=
  match ch.cstate with
  | .run => 0
  | .idle => 0
  | .doze => 1
  | .fenced => 2
  | .starting => 3
  | .fatal => 4

/-- The W edge of the even channel and the E edge of the odd one serve both members of a PAIRED pair, so what a link's
credits or its reset do to the edge of channel `c` is done to its partner's (R322, R404). (DESIGN CHOICE, log 93) -/
def mirrorEdge (c : Ch) (p : Nat) (old s : State) : State :=
  if (s.chan c).err.mode = 2 ∧ p = c.val % 2 then
    let d := portEdge p
    let a := edgeAt (old.chan c) d
    let b := edgeAt (s.chan c) d
    s.onOne (partnerOf c) fun ch => setEdge ch d { edgeAt ch d with
      outstanding := (edgeAt ch d).outstanding - (a.outstanding - b.outstanding)
      buf := if b.buf = [] ∧ a.buf ≠ [] then [] else (edgeAt ch d).buf }
  else s

/-- What a port of this module sends in a negotiation, with the lanes that are found good (R314, R315). -/
def negMsgOf (ch : Chan) (p : Nat) (good : Vector (BitVec 5) 4) : NegMsg where
  addr := ch.keg.own
  session := ch.keg.session
  verLo := 1
  verHi := 1
  maxRate := (portLimits ch p).1
  maxLanes := (portLimits ch p).2
  fecOffOk := (portAt ch p).fecOffOk
  cstate := cstateCode ch
  hops := 0
  good := good

/-- A port of an interior link answers a negotiation. -/
def answers (ch : Chan) (p : Nat) : Bool := decide ((portAt ch p).state = .negotiating)

/-- The negotiation of a port completes. The two ends of an interior link complete it together, each with what the other end
sends, once both negotiate; an end that is held down sends nothing, so the port goes down (R314). -/
def negotiationEnds (c : Ch) (p : Nat) (msg : NegMsg) (s : State) : State :=
  match interiorPeer c p with
  | none => s.onOne c (negotiationDone p msg)
  | some (d, q) =>
    let a := s.chan c
    let b := s.chan d
    if answers a p = false then s
    else if answers b q then
      (s.onOne c (negotiationDone p (negMsgOf b q msg.good))).onOne d (negotiationDone q (negMsgOf a p msg.good))
    else if portTrained b q then s
    else s.onOne c fun ch => updPort ch p fun q => { q with state := .down }

/-- KEG_NEGOTIATION_DONE (R316). -/
def execKegNegotiationDone (c : Ch) (p : Fin 6) (msg : NegMsg) (s : State) : Host.Outcome State Fault Refusal :=
  if s.hub.supply.bypass = .opened then .next (mirrorEdge c p.val s (negotiationEnds c p.val msg s)) else .next s

/-! ### Lanes (R316) -/

/-- A lane fails: the spare takes its place when one is held and has not been used, CE 0x19; otherwise the port
renegotiates. -/
def laneFails (p lane : Nat) (ch : Chan) : Chan :=
  let q := portAt ch p
  if portTrained ch p = false then ch
  else if q.active.getLsbD lane then
    if q.spare ≠ 0 ∧ q.spareUsed = false then
      report (updPort ch p fun q => { q with
        active := (q.active &&& ~~~(BitVec.ofNat 5 (2 ^ lane))) ||| q.spare, spare := 0, spareUsed := true })
        .ce 0x19 (BitVec.ofNat 8 p) 0
    else renegotiate p ch
  else ch

/-- A lane's error ratio has exceeded the threshold of R314 for 1 ms; a spare lane's also renegotiates. -/
def laneErrors (p lane : Nat) (ch : Chan) : Chan :=
  if (portAt ch p).spare.getLsbD lane then renegotiate p ch else laneFails p lane ch

/-- KEG_LANE_ERROR_LIMIT (R316). -/
def execKegLaneErrorLimit (c : Ch) (p : Fin 6) (lane : Fin 5) (s : State) : Host.Outcome State Fault Refusal :=
  onPort c (laneErrors p.val lane.val) s

/-- KEG_LANE_LOCK_LOSS: an active lane loses lock (R316). -/
def execKegLaneLockLoss (c : Ch) (p : Fin 6) (lane : Fin 5) (s : State) : Host.Outcome State Fault Refusal :=
  onPort c (laneFails p.val lane.val) s

/-- KEG_PCFG_RENEG: a write of 1 to RENEG (R316). -/
def execKegPcfgReneg (c : Ch) (p : Fin 6) (s : State) : Host.Outcome State Fault Refusal :=
  onPort c (negotiate p.val) s

/-- The partner asks for renegotiation; traffic flows on meanwhile when it leaves DOZE (R316, R334). -/
def renegRequest (p : Nat) (ch : Chan) : Chan :=
  if (portAt ch p).pknown = 1 then renegotiateLow p ch else renegotiate p ch

/-- The other end of an interior link asks for it while it negotiates; an external partner at any time. -/
def partnerAsks (c : Ch) (p : Nat) (s : State) : Bool :=
  match interiorPeer c p with
  | none => true
  | some (d, q) => answers (s.chan d) q

/-- KEG_RENEG_REQUEST (R316). -/
def execKegRenegRequest (c : Ch) (p : Fin 6) (s : State) : Host.Outcome State Fault Refusal :=
  if partnerAsks c p.val s then onPort c (renegRequest p.val) s else .next s

/-! ### KEG_PCFG -/

/-- ENABLE takes effect at once: 0 holds the port down, 1 negotiates once the bypass is open. -/
def pcfgEnable (isOpen : Bool) (p : Nat) (on : Bool) (ch : Chan) : Chan :=
  let q := portAt ch p
  if on then
    if q.enable then ch
    else
      let ch := updPort ch p fun q => { q with enable := true, state := .down }
      if isOpen then negotiate p ch else ch
  else updPort ch p fun q => { q with enable := false, state := .disabled }

/-- A write of KEG_PCFG: the other limits take effect at the next negotiation, and MAXLANES 3 is ignored as a whole. -/
def writePcfg (isOpen : Bool) (p : Nat) (v : Word) (ch : Chan) : Chan :=
  if fld v 3 2 = 3 then ch
  else
    let ch := setPort ch p fun q => { q with
      maxRate := v.extractLsb' 1 2, maxLanes := v.extractLsb' 3 2, fecOffOk := bit v 5, edgeAny := bit v 6 }
    let ch := pcfgEnable isOpen p (bit v 0) ch
    if bit v 7 && isOpen && bit v 0 then negotiate p ch else ch

/-- The bypasses are open. -/
def bypassOpen (h : Hub) : Bool := decide (h.supply.bypass = .opened)

/-- KEG_PCFG_ENABLE (R314). -/
def execKegPcfgEnable (c : Ch) (p : Fin 6) (on : Bool) (s : State) : Host.Outcome State Fault Refusal :=
  onChan c (whileClocked (pcfgEnable (bypassOpen s.hub) p.val on)) s

/-! ### Ports that stay down (R328) -/

/-- A packet leaves the router, discarded. -/
def discardOwed (ch : Chan) (p : Nat) (k : Packet) : Chan := discardPacket (settleCredit ch k) p

/-- A port that is DOWN or MISWIRED has been unusable for KEG_DOWN_LIMIT: every packet that waits for it is discarded, but
for the management packets that a MISWIRED port carries. -/
def downLimit (p : Nat) (ch : Chan) : Chan :=
  if portMode ch p = .up ∨ ch.keg.downLimit = 0 then ch
  else
    let keep := fun (k : Packet) => decide (portMode ch p = .miswired) && decide (pKind k = 5)
    let gone := (linkAt ch p).tx.filter fun k => !keep k
    let ch := setLink ch p fun l => { l with limited := true, tx := l.tx.filter keep }
    gone.foldl (fun ch k => discardOwed ch p k) ch

/-- KEG_DOWN_LIMIT_EXPIRE (R328). -/
def execKegDownLimitExpire (c : Ch) (p : Fin 6) (s : State) : Host.Outcome State Fault Refusal :=
  onChan c (downLimit p.val) s

end Sys2Proof.Machine
end

