-- ==== Sys2Proof/Machine/KegFrame.lean ====
section
/-! DEFINITION. Frames, credits, the router's hops, management packets and TIMEBASE over keg (R317 to R322, R324 to
R326, R330, R331, R424). -/

namespace Sys2Proof.Machine

/-! ### Receiving (R317 to R319, R321) -/

/-- Frames after a sequence number stay in a replay buffer whose oldest frames come first. -/
def afterAck (ack : Half) (fs : List Frame) : List Frame :=
  fs.filter fun f => decide (1 ≤ ((headOf f).seq - ack).toNat ∧ ((headOf f).seq - ack).toNat < 0x8000)

/-- What ACKSEQ and NAK of an accepted frame do at the sender: acknowledged frames leave the replay buffer, and a NAK
makes it resend the rest, CE 0x19; eight successive replays of one frame renegotiate (R316, R318). -/
def takeAck (p : Nat) (f : FrameHead) (ch : Chan) : Chan :=
  let l := linkAt ch p
  let left := afterAck f.ackseq l.replay
  let same := decide (left.head? = l.replay.head?) && decide (left ≠ [])
  let n := if f.nak && decide (left ≠ []) then (if same then l.replayed + 1 else 1) else if same then l.replayed else 0
  let ch := setLink ch p fun l => { l with
    replay := left, unsent := if f.nak then left else afterAck f.ackseq l.unsent, replayed := n }
  let ch := if f.nak && decide (left ≠ []) then report ch .ce 0x19 (BitVec.ofNat 8 p) 0 else ch
  if n ≥ 8 then renegotiate p (setLink ch p fun l => { l with replayed := 0 }) else ch

/-- Credits that a header returns: edge slots that the partner has retired, and router flits (R321, R325). -/
def takeCredits (p : Nat) (f : FrameHead) (ch : Chan) : Chan :=
  let ch := if p < 4 then
      setEdge ch (portEdge p) { edgeAt ch (portEdge p) with
        outstanding := (edgeAt ch (portEdge p)).outstanding - f.ecred.toNat }
    else ch
  setLink ch p fun l => { l with vcCred := Vector.ofFn fun i : Fin 4 => l.vcCred[i] + fld f.vcred (8 * i.val) 8 }

/-- The partner's channel state, which PSTATE shows (R333). -/
def takeCstate (p : Nat) (f : FrameHead) (ch : Chan) : Chan :=
  knowCstate p f.cstate (updPort ch p fun q => { q with pstate := f.cstate })

/-- The flits of a slot: 2 for one line, 32 for sixteen. -/
def slotFlits (s : Slot) : List (BitVec 512) :=
  (List.range (if s.deep then 32 else 2)).map fun k => s.lines.extractLsb' (512 * k) 512

/-- A slot from its flits. -/
def flitsSlot (deep : Bool) (fs : List (BitVec 512)) : Slot where
  deep := deep
  lines := (List.range fs.length).foldl (fun acc k => acc ||| ((fs.getD k 0).setWidth 16384 <<< (512 * k))) 0

/-- An edge flit arrives: the first of a slot, or a further one; the last completes it. -/
def edgeFlit (start deep : Bool) (x : BitVec 512) (l : Link) : Link :=
  let l := if start then { l with rxEdge := [x], rxDeep := deep } else { l with rxEdge := l.rxEdge ++ [x] }
  if l.rxEdge.length = (if l.rxDeep then 32 else 2) then
    { l with rxSlots := l.rxSlots ++ [flitsSlot l.rxDeep l.rxEdge], rxEdge := [] }
  else l

/-- A packet from its flits, if they are all there. -/
def flitsPacket (fs : List (BitVec 512)) : Option Packet :=
  match fs with
  | [] => none
  | h :: t =>
    let p : Packet := { hdr := h, flits := t }
    if t.length = pFlits p then some p else none

/-- The credit class of a packet on a VC: request or response. -/
def vcClass (vc1 : Bool) (k : Packet) : Nat := 2 * b2n vc1 + b2n (decide (pKind k = 4))

/-- A packet flit arrives on a virtual channel. A packet that completes and that the port does not carry is dropped, and its
buffer given back (R313). -/
def vcFlit (carried : Packet → Bool) (vc1 : Bool) (x : BitVec 512) (l : Link) : Link :=
  let fs := (if vc1 then l.rxVc1 else l.rxVc0) ++ [x]
  match flitsPacket fs with
  | some p =>
    let l := if vc1 then { l with rxVc1 := [] } else { l with rxVc0 := [] }
    if carried p then { l with rxPackets := l.rxPackets ++ [p] }
    else { l with vcGrant := l.vcGrant + fldAt (1 + pFlits p) (8 * vcClass vc1 p) }
  | none => if vc1 then { l with rxVc1 := fs } else { l with rxVc0 := fs }

/-- Flit `i` of a frame, 1 to 9 (R317). -/
def takeFlit (edges : Bool) (carried : Packet → Bool) (f : Frame) (l : Link) (i : Nat) : Link :=
  let x := flitOf f i
  match flitType f i with
  | 0 => controlFlit x l
  | 1 => if edges then edgeFlit ((headOf f).sstart.getLsbD (i - 1)) ((headOf f).sdepth.getLsbD (i - 1)) x l else l
  | 2 => vcFlit carried false x l
  | _ => vcFlit carried true x l

/-- An accepted frame. -/
def acceptFrame (p : Nat) (f : Frame) (ch : Chan) : Chan :=
  let edges := carriesEdges ch p
  let carried := carriesPacket ch p
  let h := headOf f
  let ch := setLink ch p fun l =>
    (List.range 9).foldl (fun l k => takeFlit edges carried f l (k + 1))
      { l with expected := l.expected + 1, nak := false }
  takeCstate p h (takeCredits p h (takeAck p h ch))

/-- A block is dropped: counted, and a NAK asks for a replay. (DEDUCED, log 59) -/
def dropFrame (p : Nat) (ch : Chan) : Chan :=
  let ch := setPort ch p fun q => { q with fecUncorr := satInc16 q.fecUncorr 1 }
  setLink ch p fun l => { l with nak := true }

/-- A block arrives (R317 to R319): idle blocks are not sequenced; a reserved kind, a codeword or CRC that fails, or a
frame that is missing before it, drops it; a duplicate is discarded; any other distance is a sequence error. -/
def receiveFrame (p : Nat) (f : Frame) (ch : Chan) : Chan :=
  if portTrained ch p = false then ch
  else if f.decoded = false then dropFrame p ch
  else if frameKind f = 1 then ch
  else if frameKind f ≠ 0 ∨ crcOk f = false then dropFrame p ch
  else
    let d := ((headOf f).seq - (linkAt ch p).expected).toNat
    if d = 0 then acceptFrame p f ch
    else if d ≤ 4095 then dropFrame p ch
    else if d ≥ 61441 then ch
    else renegotiate p ch

/-- The block that reaches a port: on an interior link the oldest one that its other end has sent, of which the command says
whether its codeword decodes; on an external link the command's (R14, R310). The port takes it once it is trained. -/
def arrivingFrame (c : Ch) (p : Nat) (frame : Frame) (s : State) : Option Frame × State :=
  match interiorPeer c p with
  | none => (some frame, s)
  | some (d, q) =>
    if portTrained (s.chan c) p then
      match (linkAt (s.chan d) q).wire with
      | [] => (none, s)
      | f :: rest =>
        (some { f with decoded := frame.decoded }, s.onOne d fun ch => setLink ch q fun l => { l with wire := rest })
    else (none, s)

/-- KEG_FRAME_RECEIVE (R318). -/
def execKegFrameReceive (c : Ch) (p : Fin 6) (frame : Frame) (s : State) : Host.Outcome State Fault Refusal :=
  match arrivingFrame c p.val frame s with
  | (none, _) => .next s
  | (some f, s') =>
    if s.hub.supply.bypass = .opened then .next (mirrorEdge c p.val s (s'.onOne c (receiveFrame p.val f))) else .next s

/-! ### The router's hop (R325, R326) -/

/-- The coordinate step to the partner, in the direction of the port (R326). -/
def hopStep (k : Keg) (p : Nat) (partner : Half) : Nat :=
  let dim := p / 2
  let s := ringSize k dim
  let o := coord k k.own dim
  let t := coord k partner dim
  let d := if p % 2 = 1 then (t + s - o) % s else (o + s - t) % s
  if d = 0 then s else d

/-- The hop crosses the dimension's dateline (R325). -/
def crosses (k : Keg) (p : Nat) (partner : Half) : Bool :=
  let o := coord k k.own (p / 2)
  let t := coord k partner (p / 2)
  if p % 2 = 1 then decide (t ≤ o) else decide (t ≥ o)

/-- Header cell 2 after the hop, or none when the destination lies in a bypassed module. -/
def hopRoute (k : Keg) (p : Nat) (partner : Half) (r : Word) : Option Word :=
  let dim := p / 2
  let h := rHops r dim
  let st := hopStep k p partner
  if st > h then none
  else
    let r := r - fldAt st (8 * dim)
    some (if crosses k p partner then r ||| 0x04000000#32 else r)

/-- The VC of a route: DL selects VC1. -/
def routeVc (r : Word) : Bool := bit r 26

/-- A received packet reaches the router, which holds its input buffer until the packet leaves (R324, R325). A packet that is
discarded at once gives it back. -/
def packetArrive (p : Nat) (ch : Chan) : Chan :=
  match (linkAt ch p).rxPackets with
  | [] => ch
  | k :: rest =>
    let x := setRoute k (advanceDim 3 (pRoute k))
    let ch := setLink ch p fun l => { l with rxPackets := rest }
    let ch := { ch with keg := { ch.keg with
      owed := ch.keg.owed ++ [{ packet := x, port := p, cls := vcClass (routeVc (pRoute k)) k }] } }
    if discardedAt ch k then settleCredit (enterRouter ch k) x else enterRouter ch k

/-- ROUTER_PACKET_ARRIVE (R324). -/
def execRouterPacketArrive (c : Ch) (p : Fin 6) (s : State) : Host.Outcome State Fault Refusal :=
  onPort c (packetArrive p.val) s

/-! ### Sending (R318, R320, R321) -/

/-- The packets that wait for a port and that it carries, those whose destination lies in a bypassed module discarded
(R326). -/
def discardBypassed (p : Nat) (ch : Chan) : Chan :=
  let lost := fun k => carriesPacket ch p k && (hopRoute ch.keg p (portAt ch p).partner (pRoute k)).isNone
  let gone := (linkAt ch p).tx.filter lost
  let ch := setLink ch p fun l => { l with tx := l.tx.filter fun k => !lost k }
  gone.foldl (fun ch k => discardOwed ch p k) ch

/-- A packet with its header as it leaves. -/
def hopped (ch : Chan) (p : Nat) (k : Packet) : Packet :=
  setRoute k ((hopRoute ch.keg p (portAt ch p).partner (pRoute k)).getD 0)

/-- The VC and class of a packet as it leaves. -/
def leavesOn (ch : Chan) (p : Nat) (k : Packet) : Nat := vcClass (routeVc (pRoute (hopped ch p k))) k

/-- The oldest packet of a VC's request or response class that the port carries, when the partner's buffer has room for it: a
class keeps its order, so packets from one origin to one destination do (R325, R327). -/
def headOn (ch : Chan) (p cls : Nat) : Option Packet :=
  match (linkAt ch p).tx.find? fun k => carriesPacket ch p k && decide (leavesOn ch p k = cls) with
  | some k => if 1 + pFlits k ≤ (linkAt ch p).vcCred.toList.getD cls 0 then some k else none
  | none => none

/-- The packet that leaves next on a VC: a response before a request. (DESIGN CHOICE, log 125) -/
def nextOnVc (ch : Chan) (p : Nat) (vc1 : Bool) : Option Packet :=
  match headOn ch p (2 * b2n vc1 + 1) with
  | some k => some k
  | none => headOn ch p (2 * b2n vc1)

/-- The next packet to send: the VCs alternate (R320). -/
def nextPacket (ch : Chan) (p : Nat) : Option Packet :=
  let first := nextOnVc ch p (!(linkAt ch p).turn)
  match first with
  | some k => some k
  | none => nextOnVc ch p (linkAt ch p).turn

/-- A packet starts to leave: its flits queue, its credits are spent, and its input buffer is given back. -/
def startPacket (ch : Chan) (p : Nat) (k : Packet) : Chan :=
  let h := hopped ch p k
  let vc1 := routeVc (pRoute h)
  let i := vcClass vc1 k
  setLink (settleCredit ch k) p fun l => { l with
    tx := l.tx.erase k, turn := vc1
    vcCred := Vector.ofFn fun j : Fin 4 => if j.val = i then l.vcCred[j] - (1 + pFlits k) else l.vcCred[j]
    pktFlits := (h.hdr :: h.flits).map fun d => { typ := if vc1 then 3 else 2, data := d } }

/-- The next flit of a frame with its slot marks: edge flits first, then packets (R320). -/
def nextFlit (p : Nat) (ch : Chan) : Option (Flit × Bool × Bool) × Chan :=
  let l := linkAt ch p
  match l.edgeFlits with
  | (x, st, dp) :: rest => (some ({ typ := 1, data := x }, st, dp), setLink ch p fun l => { l with edgeFlits := rest })
  | [] =>
    match (if carriesEdges ch p then l.txEdges else []) with
    | s :: more =>
      let fs := slotFlits s
      (some ({ typ := 1, data := fs.headD 0 }, true, s.deep), setLink ch p fun l => { l with
        txEdges := more, edgeFlits := (fs.drop 1).map fun x => (x, false, false) })
    | [] =>
      let ch := if l.pktFlits ≠ [] then ch else
        match nextPacket ch p with
        | some k => startPacket ch p k
        | none => ch
      match (linkAt ch p).pktFlits with
      | x :: rest => (some (x, false, false), setLink ch p fun l => { l with pktFlits := rest })
      | [] => (none, ch)

/-- Up to `n` flits. -/
def takeFlits (p : Nat) : Nat → Chan → List (Flit × Bool × Bool) × Chan
  | 0, ch => ([], ch)
  | n + 1, ch =>
    match nextFlit p ch with
    | (none, ch) => ([], ch)
    | (some x, ch) =>
      let r := takeFlits p n ch
      (x :: r.1, r.2)

/-- One bit a flit, from a list of marks. -/
def marksOf (bs : List Bool) : BitVec 9 :=
  BitVec.ofNat 9 ((List.range 9).foldl (fun acc i => acc + b2n (bs.getD i false) * 2 ^ i) 0)

/-- The header fields that every sent frame refreshes. -/
def freshHead (ch : Chan) (p : Nat) (h : FrameHead) : FrameHead :=
  { h with ackseq := (linkAt ch p).expected - 1, nak := (linkAt ch p).nak, cstate := cstateCode ch }

/-- A header with NAK is a NAK sent, counted in REPLAYS; it is sent once. (DEDUCED, log 59) -/
def nakSent (p : Nat) (ch : Chan) : Chan :=
  if (linkAt ch p).nak then
    setLink (setPort ch p fun q => { q with replays := satInc16 q.replays 1 }) p fun l => { l with nak := false }
  else ch

/-- A frame goes out to the partner; on an interior link it is on its way to the other end. -/
def onWire (inside : Bool) (p : Nat) (f : Frame) (ch : Chan) : Chan :=
  if inside then setLink ch p fun l => { l with wire := l.wire ++ [f] } else ch

/-- A new frame: the control flits that are due, then edge flits and packets, up to nine flits, with the credits to return
and the next sequence number (R320). -/
def newFrame (inside : Bool) (tb : Option (BitVec 64)) (p : Nat) (ch : Chan) : Chan :=
  let due := dueFlits tb (linkAt ch p)
  let r := takeFlits p (9 - due.length) (discardBypassed p ch)
  let l := linkAt r.2 p
  let marks := fun (f : Flit × Bool × Bool → Bool) => marksOf (due.map (fun _ => false) ++ r.1.map f)
  let f := mkFrame (freshHead r.2 p {
    seq := l.seqNext, ackseq := 0, nak := false, ecred := BitVec.ofNat 7 (min 64 l.ecred)
    sstart := marks (·.2.1), sdepth := marks (·.2.2), vcred := l.vcGrant, cstate := 0 }) (due ++ r.1.map (·.1))
  nakSent p (onWire inside p f (setLink r.2 p fun l => { l with
    seqNext := l.seqNext + 1, replay := l.replay ++ [f], ecred := l.ecred - min 64 l.ecred, vcGrant := 0
    ask := false, owe := false }))

/-- A frame is sent: a frame to be replayed goes first, and no new one while 1,024 are unacknowledged. The frame sent
stays in the replay buffer, where the partner's environment finds an external port's. (DESIGN CHOICE, log 119) -/
def transmitFrame (inside : Bool) (tb : Option (BitVec 64)) (p : Nat) (ch : Chan) : Chan :=
  if portTrained ch p = false then ch
  else
    match (linkAt ch p).unsent with
    | f :: rest =>
      let g := withHead f (freshHead ch p (headOf f))
      nakSent p (onWire inside p g (setLink ch p fun l => { l with
        unsent := rest, replay := l.replay.map fun x => if (headOf x).seq = (headOf f).seq then g else x }))
    | [] => if (linkAt ch p).replay.length ≥ 1024 then ch else newFrame inside tb p ch

/-- The TIMEBASE that this module answers with, once it has locked (R424). (DESIGN CHOICE, log 63) -/
def ownTimebase (h : Hub) : Option (BitVec 64) :=
  if h.timebase.locked || h.timebase.holdover then some h.timebase.count else none

/-- KEG_FRAME_TRANSMIT (R320). -/
def execKegFrameTransmit (c : Ch) (p : Fin 6) (s : State) : Host.Outcome State Fault Refusal :=
  onPort c (transmitFrame (interiorPeer c p.val).isSome (ownTimebase s.hub) p.val) s

/-! ### Management packets (R330) -/

/-- A management packet from the Maltster to CH0 of a module, with up to 576 bytes of an MCTP message (R323, R330). -/
def mgmtPacket (k : Keg) (dest : Half) (bs : List Byte) : Packet :=
  let bs := bs.take 576
  let fs := payload 9 bs
  { hdr := mkHeader { k with addr := k.own } 5 fs.length false dest 0 0 bs.length 0 0 0 0, flits := fs }

/-- CH0 of a module. -/
def channel0 (m : Half) : Half := globalAddr m 0

/-- The keg block hands the oldest management packet that it has ejected to the Maltster over its hub link. -/
def mgmtIn (c : Ch) (s : State) : State :=
  let ch := s.chan c
  match ch.rack.mgmt with
  | [] => s
  | p :: rest =>
    let s := s.setChan c (settleCredit { ch with rack := { ch.rack with mgmt := rest } } p)
    { s with hub := { s.hub with services := { s.hub.services with
      keg := s.hub.services.keg ++ [(pSrc p, payloadBytes p)] } } }

/-- MGMT_PACKET: the keg block passes a packet between its router and the hub link, from the Maltster to a module or to the
Maltster (R330). A message that comes is carried out by the commands of the Maltster's services. (DESIGN CHOICE, log 117) -/
def execMgmtPacket (c : Ch) (out : Option (Half × List Byte)) (s : State) : Host.Outcome State Fault Refusal :=
  if s.hub.supply.bypass = .opened then
    match out with
    | none => .next (mgmtIn c s)
    | some (m, bs) => onChan c (fun ch => enterRouter ch (mgmtPacket ch.keg (channel0 m) bs)) s
  else .next s

end Sys2Proof.Machine
end

