-- ==== Sys2Proof/Machine/Doze.lean ====
section
/-! DEFINITION. IDLE, DOZE and the compare units of a channel (R415 to R419, R425, and R304, R334 within them), and TIMEBASE
(R331, R423, R424). -/

namespace Sys2Proof.Machine

/-! ### Pairs (R404) and the root -/

/-- This module is TB_ROOT. -/
def isRoot (h : Hub) : Bool := decide (h.boot.config.addr = h.boot.config.tbRoot)


/-- The channels that act as one with channel `c`: a PAIRED pair that has not lost a member. -/
def pairOf (s : State) (c : Ch) : List Ch :=
  if (s.chan c).err.mode = 2 ∧ (s.chan c).err.solo = false then [c, partnerOf c] else [c]

/-- The same change of several channels. -/
def State.onAll (s : State) (cs : List Ch) (f : Chan → Chan) : State := cs.foldl (fun s d => s.onOne d f) s

/-! ### IDLE (R416) -/

/-- The controller waits in WFI. -/
def inWfi (ch : Chan) : Bool :=
  match ch.ev.wait with
  | some { kind := .wfi, len := _ } => true
  | _ => false

/-- The conditions of R416: AUTO_IDLE, a wait in WFI that no event ends, an empty array queue, no op that executes or
restores, and no packet that has come to the channel and waits there. -/
def idleHolds (ch : Chan) : Bool :=
  ch.pwr.autoIdle && inWfi ch && !wfiEvent ch && decide (ch.seq.queue = []) && ch.seq.cur.isNone
    && decide (ch.rack.inq = []) && decide (ch.rack.images = []) && decide (ch.rack.responses = [])

/-- IDLE_ENTRY: the conditions hold, and the command says that no host access or packet has come for 10 µs. -/
def idleEntry (ch : Chan) : Chan := if chanRunning ch && idleHolds ch then setCState ch .idle else ch

/-- IDLE_ENTRY (R416). -/
def execIdleEntry (c : Ch) (s : State) : Host.Outcome State Fault Refusal := onChan c idleEntry s

/-- IDLE_EXIT: a condition of IDLE has stopped holding (R416). A host access or a packet that is taken wakes the channel by
itself. -/
def execIdleExit (c : Ch) (s : State) : Host.Outcome State Fault Refusal :=
  onChan c (fun ch => if frozen ch || idleHolds ch then ch else wakeIdle ch) s

/-! ### DOZE (R417 to R419) -/

/-- A request for DOZE waits. -/
def dozeAsked (ch : Chan) : Bool := ch.pwr.reqCtl || ch.pwr.reqHost

/-- The conditions of R417 for entry. (DEDUCED, log 64) -/
def dozeReady (ch : Chan) : Bool :=
  memoriesClocked ch && decide (ch.seq.queue = []) && ch.seq.cur.isNone && ch.trap.drain.isNone
    && decide (ch.trap.state = 0) && decide (tagsHeld ch = 0) && decide (ch.rack.xtags = [])
    && decide (ch.lau.roots = []) && decide (ch.mill.jobs = [])

/-- The six ports negotiate again at the limits now in force (R334). -/
def renegotiateAll (isOpen : Bool) (ch : Chan) : Chan :=
  if isOpen then (List.range 6).foldl (fun ch p => renegotiate p ch) ch else ch

/-- The six ports negotiate at their configured limits, and carry traffic at the low rate until that completes (R334). -/
def leaveLow (isOpen : Bool) (ch : Chan) : Chan :=
  if isOpen then (List.range 6).foldl (fun ch p => renegotiateLow p ch) ch else ch

/-- The HBM stacks enter or leave self-refresh (R417, R418). -/
def selfRefresh (on : Bool) (ch : Chan) : Chan := { ch with hbm := { ch.hbm with refresh := on && ch.hbm.trained } }

/-- Entry: the latches go to planes 4,064 to 4,067, for which plane memory under PLANE_RET wakes (DESIGN CHOICE, log 111);
sparge ends its regions, the HBM stacks refresh themselves, and the ports go to one lane. A waiting instruction executes
again on exit, but for the OUT that made the request (R200, R417). -/
def dozeEnter (isOpen : Bool) (ch : Chan) : Chan :=
  let ch := putPlane (putPlane (putPlane (putPlane ch 4064 ch.arr.c) 4065 ch.arr.m) 4066 ch.arr.x) 4067 ch.arr.t
  let ch := selfRefresh true (spargeDoze ch)
  let ch := if ch.pwr.reqCtl then ch else { ch with ev := { ch.ev with wait := none } }
  renegotiateAll isOpen (setCState ch .doze)

/-- DOZE_ENTRY: a request waits in the channel or its partner, and the conditions hold in both (R417, R419). -/
def execDozeEntry (c : Ch) (s : State) : Host.Outcome State Fault Refusal :=
  if (pairOf s c).any (fun d => dozeAsked (s.chan d)) && (pairOf s c).all (fun d => dozeReady (s.chan d)) then
    .next (s.onAll (pairOf s c) (dozeEnter (bypassOpen s.hub)))
  else .next s

/-- The latches as the logic without power leaves them: free values. -/
def lostLatches (ch : Chan) : Chan :=
  let k := ch.free
  { ch with
    arr := { ch.arr with
      c := Config.freeSheet k, m := Config.freeSheet (k + 1), x := Config.freeSheet (k + 2), t := Config.freeSheet (k + 3) }
    free := k + 4 }

/-- The PE latches come back by T0 to T2 of the restore sequence: checked reads of planes 4,064 and 4,067, then 4,066, then
4,065 (R418). A read that finds an uncorrectable word ends them there and is reported as such a read of a RESUME is (R108); a
latch that is not loaded holds a free value. (DESIGN CHOICE, log 129) -/
def dozeLatches (ch : Chan) : Chan :=
  match restoreFault ch with
  | none => restoreLatches ([4064, 4067, 4066, 4065].foldl readCes ch) 3
  | some (p, _) =>
    let read := if p = 4066 then [4064, 4067, 4066] else if p = 4065 then [4064, 4067, 4066, 4065] else [4064, 4067]
    let ch := restoreLatches (read.foldl readCes (lostLatches ch)) (if p = 4066 then 1 else if p = 4065 then 2 else 0)
    reportPlaneUe ch p ((planeUes ch p).headD 0)

/-- Exit: the HBM stacks leave self-refresh, the latches are restored, the Mill returns to RUN from reset (R304), the
controller resumes, the ports negotiate at their configured limits, and CH_PWR_STAT records the cause, 1 host or
management, 2 compare unit (R418). The memories and the retention state are as they were. -/
def dozeExit (isOpen : Bool) (cause : BitVec 2) (ch : Chan) : Chan :=
  let ch := { ch with pwr := { ch.pwr with reqCtl := false, reqHost := false, wake := cause, last := false } }
  leaveLow isOpen (setCState (dozeLatches (selfRefresh false ch)) .run)

/-- A wake: it ends DOZE, or cancels a request whose entry has not begun (R418, R419). -/
def dozeWake (isOpen : Bool) (cause : BitVec 2) (ch : Chan) : Chan :=
  if ch.cstate = .doze then dozeExit isOpen cause ch
  else if dozeAsked ch then
    { ch with pwr := { ch.pwr with reqCtl := false, reqHost := false, wake := 3, last := true } }
  else ch

/-- A write of CH_PWR_CTL: AUTO_IDLE and TB_WAKE, and a request with DOZE 1 (16, Registers). -/
def writePwrCtl (v : Word) (ch : Chan) : Chan :=
  { ch with pwr := { ch.pwr with
    autoIdle := bit v 0, tbWake := bit v 2, reqCtl := ch.pwr.reqCtl || bit v 1 } }

/-- A write of CH_PWR_CTL with DOZE 1: the controller stalls until the channel has left DOZE or the request is cancelled. -/
def requestDoze (v : Word) (ch : Chan) : Chan :=
  if ctlGoes ch && ch.ev.wait.isNone then
    let ch := writePwrCtl (v ||| 2) ch
    { ch with ev := { ch.ev with wait := some { kind := .doze, len := 0 } } }
  else ch

/-- CH_PWR_CTL_DOZE (R417). -/
def execChPwrCtlDoze (c : Ch) (v : Word) (s : State) : Host.Outcome State Fault Refusal := onChan c (requestDoze v) s

/-- The host asks for DOZE; the bit of a channel in DOZE already reads 1. -/
def askDoze (ch : Chan) : Chan := if ch.cstate = .doze then ch else { ch with pwr := { ch.pwr with reqHost := true } }

/-- MOD_PWR_CTL_DOZE_SET: the host or management sets the channel's bit (R417, R419). -/
def execModPwrCtlDozeSet (c : Ch) (s : State) : Host.Outcome State Fault Refusal :=
  .next (s.onAll (pairOf s c) askDoze)

/-- MOD_PWR_CTL_DOZE_CLEAR: it clears the bit, which is a wake (R418, R419). -/
def execModPwrCtlDozeClear (c : Ch) (s : State) : Host.Outcome State Fault Refusal :=
  .next (s.onAll (pairOf s c) (dozeWake (bypassOpen s.hub) 1))

/-! ### Compare units (R425) -/

/-- The compare units of a channel work: it has power, and its clocks are not frozen. -/
def unitsRun (ch : Chan) : Bool := decide (ch.cstate ≠ .starting) && decide (ch.cstate ≠ .fatal) && !frozen ch

/-- The value that unit `k` compares TB_LO with. -/
def cmpOf (ch : Chan) (k : Nat) : Word := if k = 0 then ch.pwr.cmp0 else ch.pwr.cmp1

/-- Unit `k` is armed. -/
def armOf (ch : Chan) (k : Nat) : Bool := if k = 0 then ch.pwr.arm0 else ch.pwr.arm1

/-- Arm or disarm unit `k`. -/
def setArm (k : Nat) (on : Bool) (ch : Chan) : Chan :=
  if k = 0 then { ch with pwr := { ch.pwr with arm0 := on } } else { ch with pwr := { ch.pwr with arm1 := on } }

/-- (TB_LO − TB_CMPk) mod 2^32 < 2^31. -/
def cmpHolds (count : BitVec 64) (cmp : Word) : Bool := decide ((count.setWidth 32 - cmp).toNat < 2 ^ 31)

/-- Unit `k` fires: line 7 + k, and ARMk clears. -/
def fireUnit (k : Nat) (ch : Chan) : Chan := raiseLine (setArm k false ch) (7 + k)

/-- Unit `k` fires at its arming, and under TB_WAKE wakes the channel, and then its pair partner (R418, R419). -/
def fireAndWake (isOpen : Bool) (k : Nat) (ch : Chan) : Chan :=
  let ch := fireUnit k ch
  if ch.pwr.tbWake then
    let ch := dozeWake isOpen 2 ch
    { ch with pwr := { ch.pwr with woken := true } }
  else ch

/-- Arm unit `k`, which fires at once when its condition already holds. -/
def armUnit (h : Hub) (k : Nat) (ch : Chan) : Chan :=
  if cmpHolds h.timebase.count (cmpOf ch k) then fireAndWake (bypassOpen h) k (setArm k true ch) else setArm k true ch

/-- A wake that channel `c` has raised since `old` is one of its pair partner too (R419). -/
def shareWake (c : Ch) (old s : State) : State :=
  if !(old.chan c).pwr.woken && (s.chan c).pwr.woken then
    let s := s.onOne c fun ch => { ch with pwr := { ch.pwr with woken := false } }
    s.onAll ((pairOf s c).filter fun d => decide (d ≠ c)) (dozeWake (bypassOpen s.hub) 2)
  else s

/-- A write of TB_CMPCTL: the disarm acts first and the arm after it (R425). -/
def writeCmpCtl (h : Hub) (v : Word) (ch : Chan) : Chan :=
  let ch := if bit v 2 then setArm 0 false ch else ch
  let ch := if bit v 3 then setArm 1 false ch else ch
  let ch := if bit v 0 then armUnit h 0 ch else ch
  if bit v 1 then armUnit h 1 ch else ch

/-- TB_CMPCTL_ARM (R425). -/
def execTbCmpctlArm (c : Ch) (k : Fin 2) (s : State) : Host.Outcome State Fault Refusal :=
  .next (shareWake c s (s.onOne c (whileRunning (armUnit s.hub k.val))))

/-- TB_CMPCTL_DISARM (R425). -/
def execTbCmpctlDisarm (c : Ch) (k : Fin 2) (s : State) : Host.Outcome State Fault Refusal :=
  onChan c (whileRunning (setArm k.val false)) s

/-! ### TIMEBASE (R331, R423 to R425) -/

/-- The nanoseconds between two measurements. -/
def syncPeriod : Nat := 10000

/-- `n` nanoseconds pass: at a rate 100 ppm above or below nominal, the count gains or loses one in each 10 µs since the last
measurement (R424). (DESIGN CHOICE, log 63) -/
def advanced (n : Nat) (t : TimeBase) : TimeBase :=
  let k := BitVec.ofNat 64 ((t.since + n) / syncPeriod - t.since / syncPeriod)
  let c := t.count + BitVec.ofNat 64 n
  { t with
    count := match t.rate with
      | .nominal => c
      | .fast => c + k
      | .slow => c - k
    since := t.since + n }

/-- The condition of a compare unit holds at a count, or has held at one on the way there. -/
def matchedBy (old new : BitVec 64) (cmp : Word) : Bool :=
  cmpHolds new cmp || decide ((cmp - old.setWidth 32).toNat ≤ (new - old).toNat)

/-- TIMEBASE has come from `old` to its count: an armed unit that has matched fires, and under TB_WAKE wakes the channel and
its pair partner (R418, R419, R425). -/
def fireMatched (old : BitVec 64) (s : State) (ck : Ch × Nat) : State :=
  let ch := s.chan ck.1
  if unitsRun ch && armOf ch ck.2 && matchedBy old s.hub.timebase.count (cmpOf ch ck.2) then
    let s := s.onOne ck.1 (fireUnit ck.2)
    if ch.pwr.tbWake then s.onAll (pairOf s ck.1) (dozeWake (bypassOpen s.hub) 2) else s
  else s

/-- The thirty-two compare units. -/
def allUnits : List (Ch × Nat) := allChans.flatMap fun c => [(c, 0), (c, 1)]

/-- TIMEBASE changes, and the armed units are compared in every tick on the way from `old`. -/
def setTime (old : BitVec 64) (t : TimeBase) (s : State) : State :=
  allUnits.foldl (fireMatched old) { s with hub := { s.hub with timebase := t } }

/-- `n` nanoseconds pass. -/
def passTime (n : Nat) (s : State) : State := setTime s.hub.timebase.count (advanced n s.hub.timebase) s

/-- The nanoseconds until a count matches a compare value. -/
def untilMatch (count : BitVec 64) (cmp : Word) : Nat :=
  if cmpHolds count cmp then 0 else (cmp - count.setWidth 32).toNat

/-- The nanoseconds in which TIMEBASE gains `d`, or at the faster rate the first in which it has gained that much. -/
def timeFor (t : TimeBase) (d : Nat) : Nat :=
  let u := t.since % syncPeriod
  match t.rate with
  | .nominal => d
  | .fast => d + u - (d + u) / (syncPeriod + 1) - u
  | .slow => d + u + (d + u - 1) / (syncPeriod - 1) - u

/-- TB_COMPARE_FIRE: an armed unit fires in the first tick in which its condition holds (R425). -/
def execTbCompareFire (c : Ch) (k : Fin 2) (s : State) : Host.Outcome State Fault Refusal :=
  let ch := s.chan c
  if s.hub.supply.aux && unitsRun ch && armOf ch k.val then
    .next (passTime (timeFor s.hub.timebase (untilMatch s.hub.timebase.count (cmpOf ch k.val))) s)
  else .next s

/-- TB_STAT.STEPPED is set in every channel. -/
def setStepped (s : State) : State :=
  { s with chans := s.chans.map fun ch => { ch with pwr := { ch.pwr with stepped := true } } }

/-- More than 1 µs apart. -/
def farApart (a b : BitVec 64) : Bool := decide (a.toNat + 1000 < b.toNat ∨ b.toNat + 1000 < a.toNat)

/-- The module of a channel's address. -/
def moduleOf (a : Half) : Half := BitVec.ofNat 16 (gxOf a / 4 * 256 + gyOf a / 4 * 16 + gzOf a)

/-- Steps between two places of a module ring. -/
def ringSteps (n a b : Nat) : Nat := min ((a + n - b) % n) ((b + n - a) % n)

/-- The module-ring hops between two modules. -/
def moduleHops (k : Keg) (a b : Half) : Nat :=
  ringSteps (k.nxm1.toNat + 1) (fld a 8 4) (fld b 8 4) + ringSteps (k.nym1.toNat + 1) (fld a 4 4) (fld b 4 4)
    + ringSteps (k.nzm1.toNat + 1) (fld a 0 4) (fld b 0 4)

/-- An external port that is UP. -/
def upOutside (s : State) (c : Ch) (p : Nat) : Bool :=
  (externalAt c p).isSome && decide ((portAt (s.chan c) p).state = .up)

/-- The port's partner module lies one module-ring hop closer to the root. -/
def closer (s : State) (c : Ch) (p : Nat) : Bool :=
  let k := (s.chan c).keg
  let root := s.hub.boot.config.tbRoot
  upOutside s c p
    && decide (moduleHops k (moduleOf (portAt (s.chan c) p).partner) root + 1 = moduleHops k s.hub.boot.config.addr root)

/-- Every port of the module, Z before Y before X, each with the lowest channel first. Of the two ports of a channel on an
axis the lower comes first. (DESIGN CHOICE, log 63) -/
def portsByPreference : List (Ch × Nat) :=
  [2, 1, 0].flatMap fun axis => allChans.flatMap fun c => [(c, 2 * axis), (c, 2 * axis + 1)]

/-- The timing parent (R331). -/
def parentPort (s : State) : Option (Ch × Nat) := portsByPreference.find? fun x => closer s x.1 x.2

/-- The ports over which this module asks: its parent's, or, for a root that has no value yet, every external port that is
UP (R424). -/
def askedPorts (s : State) : List (Ch × Nat) :=
  if isRoot s.hub then (if s.hub.timebase.locked then [] else portsByPreference.filter fun x => upOutside s x.1 x.2)
  else (parentPort s).toList

/-- TIMEBASE steps to a value, which is compared like any tick (R425). -/
def stepTime (v : BitVec 64) (s : State) : State := setTime v { s.hub.timebase with count := v } s

/-- The rate that brings a count towards a target. -/
def rateTo (count target : BitVec 64) : Rate :=
  if count.toNat < target.toNat then .fast else if target.toNat < count.toNat then .slow else .nominal

/-- The root's TIMEBASE 10 ms after aux power-up, from where it takes no value (R424). -/
def rootWait : Nat := 10000000

/-- The parent's TIMEBASE as it was heard, plus half the round trip. At the first lock, or when more than 1 µs off, TIMEBASE
steps there and STEPPED is set; otherwise only its rate changes. The root takes its value so once, within 10 ms of aux
power-up, from where it counts (R424). (DESIGN CHOICE, log 63) -/
def steer (target : BitVec 64) (s : State) : State :=
  let t := s.hub.timebase
  if isRoot s.hub then
    let s := if t.count.toNat ≤ rootWait then stepTime target s else s
    { s with hub := { s.hub with timebase := { s.hub.timebase with locked := true } } }
  else
    let hops := BitVec.ofNat 5 (moduleHops (s.chan 0).keg s.hub.boot.config.addr s.hub.boot.config.tbRoot)
    let step := !t.locked || farApart t.count target
    let s := if step then setStepped (stepTime target s) else s
    { s with hub := { s.hub with timebase := { s.hub.timebase with
      rate := if step then .nominal else rateTo t.count target, locked := true, holdover := false, hops := hops } } }

/-- The first answer on the ports that were asked. -/
def heardOf (s : State) : Option (BitVec 64) :=
  (askedPorts s).findSome? fun x => (linkAt (s.chan x.1) x.2).heard

/-- The next measurement is asked for, and the last answers are used up. -/
def askAgain (s : State) : State :=
  (askedPorts s).foldl (fun s x => s.onOne x.1 fun ch => setLink ch x.2 fun l => { l with ask := true, heard := none }) s

/-- The 10 µs since the last measurement pass, as far as they have not. -/
def endPeriod (s : State) : State :=
  let s := passTime (syncPeriod - s.hub.timebase.since) s
  { s with hub := { s.hub with timebase := { s.hub.timebase with since := 0 } } }

/-- A measurement period ends: the answer that has come over the parent port steers TIMEBASE with the round trip measured,
and the next question is due (R331). -/
def timebaseSync (round : Word) (s : State) : State :=
  let s' := askAgain (endPeriod s)
  match heardOf s with
  | some t => steer (t + BitVec.ofNat 64 (round.toNat / 2)) s'
  | none => s'

/-- TIMEBASE_SYNC (R331). -/
def execTimebaseSync (round : Word) (s : State) : Host.Outcome State Fault Refusal :=
  if s.hub.supply.aux then .next (timebaseSync round s) else .next s

/-- TIMEBASE_HOLDOVER: no parent has been usable for 10 ms, and the count keeps its last rate (R331, R424). A root that no
module has answered counts on from its own value. -/
def execTimebaseHoldover (s : State) : Host.Outcome State Fault Refusal :=
  onHub (fun h =>
    if h.supply.aux = false then h
    else if isRoot h then { h with timebase := { h.timebase with locked := true } }
    else { h with timebase := { h.timebase with holdover := true } }) s

end Sys2Proof.Machine
end

