-- ==== Sys2Proof/Machine/IoRegs.lean ====
section
/-! DEFINITION. The I/O space of a channel (R242, R243): what each register reads as, what a read latches (R94, R150),
when a write stalls, and what it does. -/

namespace Sys2Proof.Machine

/-! ### Reads -/

/-- io 0x0100 to 0x011F (07, Registers). (DEDUCED, log 18) -/
def readCtlReg (t : Ctl) (e : Events) (a : Nat) : Option Word :=
  if a = 0x100 then some (statusWord t)
  else if a = 0x101 then some e.trapCause
  else if a = 0x102 then some e.trapAddr
  else if a = 0x104 then some e.intPend
  else if a = 0x105 then some e.intEn
  else if a = 0x106 then some 0
  else if a = 0x108 then some t.dsp
  else if a = 0x109 then some t.dspBase
  else if a = 0x10A then some t.dspLimit
  else if a = 0x10C then some t.rsp
  else if a = 0x10D then some t.rspBase
  else if a = 0x10E then some t.rspLimit
  else if a = 0x110 then some (t.repc.setWidth 32)
  else if a = 0x111 then some (BitVec.ofNat 32 t.depth)
  else if a = 0x112 then some (BitVec.ofNat 32 (t.vl + t.vs.length * 65536))
  else if a = 0x113 then some (t.fpctl.setWidth 32)
  else if 0x114 ≤ a ∧ a ≤ 0x117 then some (BitVec.ofNat 32 (fld (levelAt t (a - 0x114)).ls 0 19))
  else if 0x118 ≤ a ∧ a ≤ 0x11B then some (BitVec.ofNat 32 (fld (levelAt t (a - 0x118)).le 0 19))
  else if 0x11C ≤ a ∧ a ≤ 0x11F then some (levelAt t (a - 0x11C)).lc
  else none

/-- ARRAY_EDGE_STAT (02, Edge registers). -/
def edgeStat (ch : Chan) : Word :=
  fldAt (edgeAt ch 0).buf.length 0 ||| fldAt (edgeAt ch 1).buf.length 7 ||| fldAt (edgeAt ch 2).buf.length 14
    ||| fldAt (edgeAt ch 3).buf.length 21 ||| bitAt ch.arr.stall 28 ||| bitAt ch.arr.short 29

/-- ARRAY_TRAP_STAT (04, Registers). -/
def trapStat (t : Trap) : Word :=
  fldAt t.state.toNat 0 ||| fldAt t.cause.toNat 2 ||| fldAt t.sub.toNat 10 ||| fldAt t.ffield.toNat 12
    ||| bitAt t.nosave 14 ||| bitAt t.mgmt 15 ||| bitAt t.repairSet 16 ||| fldAt t.ystat.toNat 17
    ||| fldAt t.rstat.toNat 19

/-- io 0x0200 to 0x0233 (02 to 04). -/
def readArrayReg (ch : Chan) (a : Nat) : Option Word :=
  if a = 0x200 then some (ch.arr.edgeCtl.setWidth 32)
  else if a = 0x201 then some (edgeStat ch)
  else if a = 0x202 then some ch.arr.stallLimit
  else if a = 0x203 then some ch.arr.planeCe
  else if 0x208 ≤ a ∧ a ≤ 0x20F then some ((ch.arr.tunMap.toList.getD (a - 0x208) 8).setWidth 32)
  else if a = 0x210 then
    some (fldAt ch.seq.queue.length 0 ||| bitAt ch.seq.cur.isSome 7 ||| bitAt ch.seq.stop 8 ||| bitAt ch.seq.waiting 9)
  else if a = 0x211 then some 0
  else if a = 0x212 then some (ch.seq.stepcount.setWidth 32)
  else if a = 0x213 then some ch.seq.stepLatch
  else if a = 0x214 then some (ch.seq.issueCause.setWidth 32)
  else if a = 0x215 then some ch.seq.ustoreId
  else if a = 0x216 then some ch.seq.ustoreCe
  else if a = 0x218 then some (trapStat ch.trap)
  else if a = 0x219 then some 0
  else if 0x21C ≤ a ∧ a ≤ 0x21F then some ((ch.trap.holds.toList.getD (a - 0x21C) 0).setWidth 32)
  else if 0x220 ≤ a ∧ a ≤ 0x233 then some (if ch.trap.state = 2 then ch.trap.save.toList.getD (a - 0x220) 0 else 0)
  else none

/-- The low half of a split register in effect (R150). -/
def splitLo (x : Split) : Word := x.value.setWidth 32

/-- The high half. -/
def splitHi (x : Split) : Word := x.value.extractLsb' 32 32

/-- io 0x0240 to 0x0268 (05). -/
def readFmtReg (f : Fmt) (a : Nat) : Option Word :=
  if 0x240 ≤ a ∧ a ≤ 0x25F then
    some ((if a % 2 = 0 then f.gfdA else f.gfdB).toList.getD ((a - 0x240) / 2) 0)
  else if a = 0x260 then some 0
  else if a = 0x262 then some (splitLo f.seed)
  else if a = 0x263 then some f.seed.latch
  else if a = 0x264 then some (splitLo f.epoch)
  else if a = 0x265 then some f.epoch.latch
  else if a = 0x266 then some 0
  else if a = 0x267 then some (f.flags.setWidth 32)
  else if a = 0x268 then some (f.origin.setWidth 32)
  else none

/-- io 0x0280 to 0x038B (06, Registers). -/
def readLauReg (l : Lau) (a : Nat) : Option Word :=
  if a = 0x280 then some (l.events.setWidth 32)
  else if a = 0x281 then some (l.gor.setWidth 32)
  else if a = 0x282 then some (l.gor.extractLsb' 32 32)
  else if a = 0x284 then some (l.expect.setWidth 32)
  else if a = 0x285 then some (l.rxCount.setWidth 32 ||| fldAt l.bankStat.toNat 16)
  else if 0x288 ≤ a ∧ a ≤ 0x28F then some ((l.xdest.toList.getD (a - 0x288) 0).setWidth 32)
  else if 0x290 ≤ a ∧ a ≤ 0x297 then some (l.lres.extractLsb' (32 * (a - 0x290)) 32)
  else if a = 0x298 then some (l.lround.setWidth 32)
  else if 0x300 ≤ a ∧ a ≤ 0x38B then some (imageCell l.snap (a - 0x300))
  else none

/-- SPARGE_xSTAT (09, Registers). -/
def spargeStat (x : SpargeMem) : Word := fldAt x.phase.toNat 0 ||| bitAt x.starved 3 ||| fldAt x.region.toNat 4

/-- io 0x0400 to 0x040F (09, Registers). -/
def readMemReg (m : ChanMem) (a : Nat) : Option Word :=
  if a = 0x400 then some m.dmemCe
  else if a = 0x401 then some m.imemCe
  else if a = 0x402 then some (m.lostHost.setWidth 32 ||| fldAt m.lostRack.toNat 16)
  else if a = 0x404 then some (bitAt m.planeRet 0)
  else if a = 0x405 then some (bitAt m.planeRet 0 ||| bitAt m.waking 1)
  else if a = 0x406 then some (bitAt m.imemWait 0)
  else if a = 0x408 then some (spargeStat m.spD)
  else if a = 0x409 then some (spargeStat m.spI)
  else if a = 0x40A then some (spargeStat m.spP)
  else if a = 0x40B then
    some (fldAt m.usedD 0 ||| fldAt m.usedI 8 ||| bitAt m.outD 16 ||| bitAt m.outI 17)
  else none

/-- io 0x0800 to 0x0EFF: the registers of queue pair `a mod 256` (10, Registers). -/
def readQpReg (ch : Chan) (a : Nat) : Option Word :=
  let q := a % 256
  let p := qpAt ch q
  match a / 256 with
  | 8 => some (p.sqdb.setWidth 32)
  | 9 => some (p.cqdb.setWidth 32)
  | 10 => some (readRqCfg ch q)
  | 11 => some p.baseLo
  | 12 => some p.baseHi
  | 13 => some (p.sqHead.setWidth 32 ||| fldAt p.cqTail.toNat 16)
  | 14 => some (p.modCount.setWidth 32 ||| fldAt p.modTime.toNat 16)
  | _ => none

/-- io 0x0F00 to 0x0FFF and 0x1000 to 0x10FF (10, Registers). -/
def readRackReg (ch : Chan) (a : Nat) : Option Word :=
  if a = 0xF00 then some (BitVec.ofNat 32 (tagsHeld ch))
  else if a = 0xF01 then some (ch.rack.inbound.setWidth 32)
  else if a = 0xF02 then some ch.rack.inwin
  else if a = 0xF03 then some ch.rack.rtimeout
  else if a = 0x1000 then
    some (bitAt ch.hbm.trained 0 ||| fldAt ch.hbm.lanes.toNat 1 ||| bitAt (repairPending ch) 6)
  else if a = 0x1001 then some ch.hbm.ce
  else if a = 0x1002 then some ch.hbm.ue
  else if a = 0x1003 then some (ch.hbm.passes.setWidth 32)
  else none

/-- MILL_STAT.STATE. -/
def millStateCode : MillState → Nat
  | .none => 0
  | .loading => 1
  | .failed => 2
  | .run => 3
  | .halted => 4

/-- The tap parallel clock in whole MHz: the line rate of R299 ÷ 64. -/
def tapMhz (code : Nat) : Nat := [19, 39, 48, 78, 97, 161, 195, 250, 390, 402, 437].getD code 0

/-- The configured frequency of a clock tree cell in whole MHz (R297). (DEDUCED, log 57) -/
def treeMhz (rate : Nat) (c : Word) : Nat :=
  match ckSource c with
  | 1 => 3200 / ckN c
  | 2 => 100 * ckMul c / ckDiv c
  | 3 => tapMhz rate
  | 4 => tapMhz rate
  | _ => 0

/-- The image that MILL_ID and MILL_CLK show: that of a Mill in RUN or HALTED. -/
def shownImage (m : Mill) : Option MillImage :=
  if m.state = .run ∨ m.state = .halted then m.image else none

/-- MILL_CLKn. (DEDUCED, log 57) -/
def millClk (ch : Chan) (n : Nat) : Word :=
  match shownImage ch.mill with
  | none => 0
  | some i => fldAt (treeMhz i.rate.toNat (i.clk.toList.getD n 0)) 0 ||| bitAt (treeRuns ch n) 16

/-- MILL_FMTS: bit m of VALID, all 0 unless STATE is RUN. -/
def millFmts (m : Mill) : Word :=
  if m.state = .run then
    (List.range 16).foldl (fun acc k => acc ||| bitAt (fmtValid (fmtEntry m k)) k) 0
  else 0

/-- io 0x1400 to 0x14FF (11, Registers). -/
def readMillReg (ch : Chan) (a : Nat) : Option Word :=
  let m := ch.mill
  if a = 0x1400 then
    some (fldAt (millStateCode m.state) 0 ||| bitAt m.scrubErr 3 ||| bitAt m.parityErr 4 ||| fldAt m.failcode.toNat 8)
  else if a = 0x1401 then some (bitAt m.ureset 0)
  else if a = 0x1402 then some (match shownImage m with | some i => i.id | none => 0)
  else if a = 0x1403 then some (millFmts m)
  else if 0x1404 ≤ a ∧ a ≤ 0x1407 then some (millClk ch (a - 0x1404))
  else if a = 0x1408 then some (m.tapCtl.setWidth 32)
  else if a = 0x1409 then
    some (bitAt m.sigdet 0 ||| bitAt m.lock 1 ||| bitAt m.lockLost 2 ||| bitAt m.sigdetChg 3 ||| fldAt m.prbsErr.toNat 16)
  else if a = 0x140A then some m.scrub
  else if 0x1440 ≤ a ∧ a ≤ 0x144F then some (m.ureg.toList.getD (a - 0x1440) 0)
  else if 0x1450 ≤ a ∧ a ≤ 0x145F then
    some (if m.state = .run then BitVec.ofNat 32 (driverWord m (lanesNow m) (16 + (a - 0x1450)) 320 32) else 0)
  else none

/-- KEG_PSTAT.STATE. -/
def pstateCode : PState → Nat
  | .down => 0
  | .negotiating => 1
  | .up => 2
  | .miswired => 3
  | .disabled => 4

/-- KEG_PCFG of a port; RENEG reads 0. -/
def readPcfg (p : Port) : Word :=
  bitAt p.enable 0 ||| fldAt p.maxRate.toNat 1 ||| fldAt p.maxLanes.toNat 3 ||| bitAt p.fecOffOk 5 ||| bitAt p.edgeAny 6

/-- KEG_PSTAT of a port. -/
def readPstat (p : Port) : Word :=
  fldAt (pstateCode p.state) 0 ||| fldAt p.rate.toNat 3 ||| fldAt p.lanes.toNat 5 ||| bitAt (decide (p.spare ≠ 0)) 7
    ||| bitAt p.spareUsed 8 ||| bitAt p.fec 9 ||| fldAt p.version.toNat 10 ||| fldAt p.bypHops.toNat 14
    ||| fldAt p.pstate.toNat 18 ||| bitAt p.pmismatch 21 ||| bitAt p.pchg 22 ||| bitAt p.renegd 23 ||| bitAt p.downev 24

/-- io 0x1800 to 0x18FF (12, Registers). -/
def readKegReg (ch : Chan) (a : Nat) : Option Word :=
  let k := ch.keg
  if 0x1800 ≤ a ∧ a ≤ 0x1805 then some (readPcfg (portAt ch (a - 0x1800)))
  else if 0x1808 ≤ a ∧ a ≤ 0x180D then some (readPstat (portAt ch (a - 0x1808)))
  else if 0x1810 ≤ a ∧ a ≤ 0x1815 then
    some ((portAt ch (a - 0x1810)).partner.setWidth 32 ||| bitAt (portAt ch (a - 0x1810)).pvalid 16)
  else if 0x1818 ≤ a ∧ a ≤ 0x181D then
    some ((portAt ch (a - 0x1818)).replays.setWidth 32 ||| fldAt (portAt ch (a - 0x1818)).fecUncorr.toNat 16)
  else if a = 0x1820 then
    some (k.addr.setWidth 32 ||| fldAt k.nxm1.toNat 16 ||| fldAt k.nym1.toNat 20 ||| fldAt k.nzm1.toNat 24)
  else if a = 0x1821 then some (bitAt k.xfail 0 ||| bitAt k.discard 1 ||| fldAt k.discards.toNat 16)
  else if a = 0x1822 then some k.downLimit
  else none

/-- CF_STAT.CSTATE. -/
def csCode : CState → Nat
  | .run => 0
  | .idle => 1
  | .doze => 2
  | .fenced => 3
  | .starting => 4
  | .fatal => 5

/-- CF_STAT (13, Registers). -/
def cfStat (h : Hub) (ch : Chan) : Word :=
  fldAt (csCode ch.cstate) 0 ||| bitAt ch.fn.mse 3 ||| bitAt ch.fn.bme 4 ||| bitAt ch.fn.d3 5
    ||| fldAt h.link.speed.toNat 6 ||| fldAt h.link.width.toNat 9

/-- TB_STAT (16, Registers); the root is locked to no parent. -/
def tbStat (h : Hub) (ch : Chan) : Word :=
  bitAt (isRoot h) 0 ||| bitAt (h.timebase.locked && !isRoot h) 1 ||| bitAt h.timebase.holdover 2
    ||| bitAt ch.pwr.stepped 3 ||| fldAt h.timebase.hops.toNat 4

/-- io 0x1C00 to 0x1C4F (13 and 16, Registers). -/
def readHostReg (h : Hub) (ch : Chan) (a : Nat) : Option Word :=
  if a = 0x1C00 then some (cfStat h ch)
  else if a = 0x1C01 then some (fldAt ch.host.hwin.toNat 15)
  else if a = 0x1C02 then some ch.host.h2c
  else if a = 0x1C03 then some ch.host.c2h
  else if a = 0x1C40 then some (h.timebase.count.setWidth 32)
  else if a = 0x1C41 then some ch.pwr.tbHi
  else if a = 0x1C42 then some (h.timebase.count.extractLsb' 10 32)
  else if a = 0x1C44 then some ch.pwr.cmp0
  else if a = 0x1C45 then some ch.pwr.cmp1
  else if a = 0x1C46 then some (bitAt ch.pwr.arm0 0 ||| bitAt ch.pwr.arm1 1)
  else if a = 0x1C48 then some (tbStat h ch)
  else none

/-- io 0x1C80 to 0x1CCF (15 and 16, Registers). -/
def readErrReg (ch : Chan) (a : Nat) : Option Word :=
  let e := ch.err
  if a = 0x1C80 then
    some (bitAt e.ce 0 ||| bitAt e.ucc 1 ||| bitAt e.partnerFenced 2 ||| fldAt e.lastCode.toNat 8)
  else if a = 0x1C81 then some e.detail
  else if a = 0x1C84 then some (fldAt e.mode.toNat 0 ||| bitAt e.solo 2 ||| bitAt (oddChan ch) 3)
  else if a = 0x1C88 then some (bitAt (decide (e.capState = 1)) 0 ||| bitAt e.capFreeze 1)
  else if a = 0x1C89 then some (e.capStep.setWidth 32)
  else if a = 0x1C8A then some (e.capStep.extractLsb' 32 32)
  else if a = 0x1C8B then some e.capU
  else if a = 0x1C8C then some (fldAt e.capState.toNat 0 ||| bitAt e.capLate 2)
  else if a = 0x1CC0 then some (bitAt ch.pwr.autoIdle 0 ||| bitAt ch.pwr.tbWake 2)
  else if a = 0x1CC1 then
    some (fldAt (if ch.cstate = .idle then 1 else 0) 0 ||| fldAt ch.pwr.wake.toNat 2 ||| bitAt ch.pwr.last 4)
  else none

/-- What io address `a` reads as; none where the map assigns no register (R242). (DEDUCED, log 105) -/
def ioRead (h : Hub) (ch : Chan) (a : Nat) : Option Word :=
  if a < 0x200 then readCtlReg ch.ctl ch.ev a
  else if a < 0x240 then readArrayReg ch a
  else if a < 0x280 then readFmtReg ch.fmt a
  else if a < 0x400 then readLauReg ch.lau a
  else if a < 0x800 then readMemReg ch.mem a
  else if a < 0xF00 then readQpReg ch a
  else if a < 0x1400 then readRackReg ch a
  else if a < 0x1800 then readMillReg ch a
  else if a < 0x1C00 then readKegReg ch a
  else if a < 0x1C80 then readHostReg h ch a
  else readErrReg ch a

/-- The map assigns the address. -/
def ioAssigned (h : Hub) (ch : Chan) (a : Nat) : Bool := (ioRead h ch a).isSome

/-- The low half of a split register latches the high half (R94, R150). (DEDUCED, log 36) -/
def ioLatch (h : Hub) (a : Nat) (ch : Chan) : Chan :=
  if a = 0x212 then { ch with seq := { ch.seq with stepLatch := ch.seq.stepcount.extractLsb' 32 32 } }
  else if a = 0x262 then { ch with fmt := { ch.fmt with seed := { ch.fmt.seed with latch := splitHi ch.fmt.seed } } }
  else if a = 0x264 then { ch with fmt := { ch.fmt with epoch := { ch.fmt.epoch with latch := splitHi ch.fmt.epoch } } }
  else if a = 0x1C40 then { ch with pwr := { ch.pwr with tbHi := h.timebase.count.extractLsb' 32 32 } }
  else ch

/-! ### Stalls -/

/-- No op is queued or runs (R49). -/
def arrayEmpty (ch : Chan) : Bool := decide (ch.seq.queue = []) && ch.seq.cur.isNone

/-- R118: no op waits for issue, or issue is stopped. -/
def fmtWritable (ch : Chan) : Bool := decide (ch.seq.queue = []) || ch.seq.stop

/-- R163, R166: no op is queued or runs, and no root operation is in flight. -/
def lauWritable (ch : Chan) : Bool := arrayEmpty ch && decide (ch.lau.roots = [])

/-- An OUT of `v` to `a` cannot take effect yet (R49, R118, R163, R166, R245). -/
def outBlocked (ch : Chan) (a : Nat) (v : Word) : Bool :=
  if a = 0x200 then !arrayEmpty ch
  else if 0x240 ≤ a ∧ a ≤ 0x268 then !fmtWritable ch
  else if a = 0x284 ∨ 0x288 ≤ a ∧ a ≤ 0x28F ∨ 0x300 ≤ a ∧ a ≤ 0x38B then !lauWritable ch
  else if a = 0x404 then bit v 0 && !retReady ch
  else false

/-! ### Writes -/

/-- CPU_STATUS: the RW bits. A 1 in bit 4 sets VFF, which its card makes RW, though R180 names VLDFF alone.
(DEDUCED, log 127) -/
def writeStatus (t : Ctl) (v : Word) : Ctl := { setFlagsWord t v with ie := bit v 5 }

/-- The controller registers but the stack pointers and bounds (07, Registers). -/
def writeCtlReg (a : Nat) (v : Word) (ch : Chan) : Chan :=
  let t := ch.ctl
  if a = 0x100 then { ch with ctl := writeStatus t v }
  else if a = 0x104 then { ch with ev := { ch.ev with intPend := ch.ev.intPend &&& ~~~v } }
  else if a = 0x105 then { ch with ev := { ch.ev with intEn := v } }
  else if a = 0x106 then { ch with ev := { ch.ev with intPend := ch.ev.intPend ||| (v &&& 0xF000#32) } }
  else if a = 0x110 then { ch with ctl := { t with repc := v.setWidth 16 } }
  else if a = 0x111 then (if fld v 0 3 > 4 then ch else { ch with ctl := { t with depth := fld v 0 3 } })
  else if a = 0x112 then { ch with ctl := { t with vl := min 256 (fld v 0 9) } }
  else if a = 0x113 then (if fld v 0 3 > 4 then ch else { ch with ctl := { t with fpctl := v.setWidth 10 } })
  else if 0x114 ≤ a ∧ a ≤ 0x117 then
    { ch with ctl := setLevel t (a - 0x114) { levelAt t (a - 0x114) with ls := BitVec.ofNat 20 (fld v 0 19) } }
  else if 0x118 ≤ a ∧ a ≤ 0x11B then
    { ch with ctl := setLevel t (a - 0x118) { levelAt t (a - 0x118) with le := BitVec.ofNat 20 (fld v 0 19) } }
  else if 0x11C ≤ a ∧ a ≤ 0x11F then
    { ch with ctl := setLevel t (a - 0x11C) { levelAt t (a - 0x11C) with lc := v } }
  else ch

/-- A write of ARRAY_EDGE_CTL; one that carries mode 3 is ignored as a whole (R49). -/
def writeEdgeCtl (v : Word) (ch : Chan) : Chan :=
  if (List.range 4).any fun d => decide (fld v (2 * d) 2 = 3) then ch
  else { ch with arr := { ch.arr with edgeCtl := v.setWidth 12 } }

/-- io 0x0200 to 0x0233. -/
def writeArrayReg (a : Nat) (v : Word) (ch : Chan) : Chan :=
  if a = 0x200 then writeEdgeCtl v ch
  else if a = 0x201 then
    { ch with arr := { ch.arr with stall := ch.arr.stall && !bit v 28, short := ch.arr.short && !bit v 29 } }
  else if a = 0x202 then { ch with arr := { ch.arr with stallLimit := v } }
  else if a = 0x211 then writeQctl ch v
  else if a = 0x218 then
    { ch with trap := { ch.trap with nosave := ch.trap.nosave && !bit v 14, mgmt := ch.trap.mgmt && !bit v 15 } }
  else if a = 0x219 then writeTrapCtl ch v
  else ch

/-- GFD cell A or B. -/
def writeGfd (n : Nat) (v : Word) (f : Fmt) : Fmt :=
  if n % 2 = 0 then { f with gfdA := f.gfdA.setIfInBounds (n / 2) v } else { f with gfdB := f.gfdB.setIfInBounds (n / 2) v }

/-- Cell A of a preset (R119). -/
def presetCell (code : Nat) : Option Word := [0x2842#32, 0x4042, 0x4082, 0x5902, 0x7A02][code]?

/-- A write of GFD_PRESET; a reserved code is ignored as a whole (R119). -/
def writePreset (v : Word) (f : Fmt) : Fmt :=
  match presetCell (fld v 4 3) with
  | none => f
  | some a => writeGfd (2 * fld v 0 4 + 1) 0 (writeGfd (2 * fld v 0 4) a f)

/-- A write of a _LO register is held (R150). -/
def holdLo (v : Word) (x : Split) : Split := { x with held := some v }

/-- A write of a _HI register takes effect with the held _LO, or replaces the high half (R150). (DEDUCED, log 36) -/
def applyHi (v : Word) (x : Split) : Split :=
  { x with value := v ++ x.held.getD (splitLo x), held := none }

/-- io 0x0240 to 0x0268; MARK sets the epoch to STEPCOUNT. -/
def writeFmtReg (a : Nat) (v : Word) (ch : Chan) : Chan :=
  let f := ch.fmt
  if 0x240 ≤ a ∧ a ≤ 0x25F then { ch with fmt := writeGfd (a - 0x240) v f }
  else if a = 0x260 then { ch with fmt := writePreset v f }
  else if a = 0x262 then { ch with fmt := { f with seed := holdLo v f.seed } }
  else if a = 0x263 then { ch with fmt := { f with seed := applyHi v f.seed } }
  else if a = 0x264 then { ch with fmt := { f with epoch := holdLo v f.epoch } }
  else if a = 0x265 then { ch with fmt := { f with epoch := applyHi v f.epoch } }
  else if a = 0x266 then
    (if bit v 0 then { ch with fmt := { f with epoch := { f.epoch with value := ch.seq.stepcount } } } else ch)
  else if a = 0x268 then { ch with fmt := { f with origin := v.setWidth 16 } }
  else ch

/-- The snapshot with one cell replaced. -/
def setImageCell (m : LauImage) (n : Nat) (v : Word) : LauImage :=
  (m &&& ~~~((0xFFFFFFFF#32).setWidth 4480 <<< (32 * n))) ||| (v.setWidth 4480 <<< (32 * n))

/-- io 0x0280 to 0x038B. A cell that sets POISON in the snapshot sets LAUTER_STAT.POISONED too. (DEDUCED, log 35) -/
def writeLauReg (a : Nat) (v : Word) (ch : Chan) : Chan :=
  let l := ch.lau
  if a = 0x280 then { ch with lau := { l with events := l.events &&& ~~~(v.setWidth 3) } }
  else if a = 0x284 then { ch with lau := { l with expect := v.setWidth 16 } }
  else if 0x288 ≤ a ∧ a ≤ 0x28F then
    { ch with lau := { l with xdest := l.xdest.setIfInBounds (a - 0x288) (v.setWidth 17) } }
  else if 0x300 ≤ a ∧ a ≤ 0x38B then
    let m := setImageCell l.snap (a - 0x300) v
    { ch with lau := notePoison (imageStat l.snap) (imageStat m) { l with snap := m } }
  else ch

/-- STARVED is cleared by a 1. -/
def clearStarved (x : SpargeMem) (v : Word) : SpargeMem := { x with starved := x.starved && !bit v 3 }

/-- io 0x0400 to 0x040F. -/
def writeMemReg (a : Nat) (v : Word) (ch : Chan) : Chan :=
  let m := ch.mem
  if a = 0x404 then writeRet ch (bit v 0)
  else if a = 0x406 then { ch with mem := { m with imemWait := m.imemWait && !bit v 0 } }
  else if a = 0x408 then { ch with mem := { m with spD := clearStarved m.spD v } }
  else if a = 0x409 then { ch with mem := { m with spI := clearStarved m.spI v } }
  else if a = 0x40A then { ch with mem := { m with spP := clearStarved m.spP v } }
  else ch

/-- io 0x0800 to 0x0FFF: queue pairs and the engine. -/
def writeRackReg (a : Nat) (v : Word) (ch : Chan) : Chan :=
  let q := a % 256
  match a / 256 with
  | 8 => writeDoorbell false q v ch
  | 9 => writeDoorbell true q v ch
  | 10 => writeRqCfg q v ch
  | 11 => writeIdleQp q (fun p => { p with baseLo := v }) ch
  | 12 => writeIdleQp q (fun p => { p with baseHi := v }) ch
  | 14 => writeRqMod q v ch
  | 15 =>
    if a = 0xF01 then { ch with rack := { ch.rack with inbound := v.setWidth 16 &&& 0xFF07 } }
    else if a = 0xF02 then { ch with rack := { ch.rack with inwin := v &&& 0x3FFF3FFF } }
    else if a = 0xF03 then { ch with rack := { ch.rack with rtimeout := v } }
    else ch
  | _ => ch

/-- A write of MILL_TAP_CTL; PRBS_ERR counts from the setting of PRBS_CHK, and without TX_EN the transmitter is idle. -/
def writeTapCtl (v : Word) (m : Mill) : Mill :=
  { m with
    tapCtl := v.setWidth 7
    tx := if bit v 0 then m.tx else none
    prbsErr := if bit v 6 && !bit m.tapCtl 6 then 0 else m.prbsErr }

/-- A transmitter that is enabled in RUN sends (R300). -/
def startTap (ch : Chan) : Chan := if millRuns ch && ch.mill.tx.isNone then sendTap ch else ch

/-- io 0x1400 to 0x14FF. -/
def writeMillReg (a : Nat) (v : Word) (ch : Chan) : Chan :=
  if a = 0x1400 then
    setMill ch fun m => { m with scrubErr := m.scrubErr && !bit v 3, parityErr := m.parityErr && !bit v 4 }
  else if a = 0x1401 then setMill ch fun m => setUreset m (bit v 0)
  else if a = 0x1408 then startTap (setMill ch (writeTapCtl v))
  else if a = 0x1409 then
    setMill ch fun m => { m with lockLost := m.lockLost && !bit v 2, sigdetChg := m.sigdetChg && !bit v 3 }
  else if 0x1440 ≤ a ∧ a ≤ 0x144F then setMill ch fun m => { m with ureg := m.ureg.setIfInBounds (a - 0x1440) v }
  else ch

/-- io 0x1800 to 0x18FF. -/
def writeKegReg (h : Hub) (a : Nat) (v : Word) (ch : Chan) : Chan :=
  if 0x1800 ≤ a ∧ a ≤ 0x1805 then writePcfg (bypassOpen h) (a - 0x1800) v ch
  else if 0x1808 ≤ a ∧ a ≤ 0x180D then
    setPort ch (a - 0x1808) fun p =>
      { p with pchg := p.pchg && !bit v 22, renegd := p.renegd && !bit v 23, downev := p.downev && !bit v 24 }
  else if a = 0x1821 then
    { ch with keg := { ch.keg with xfail := ch.keg.xfail && !bit v 0, discard := ch.keg.discard && !bit v 1 } }
  else if a = 0x1822 then { ch with keg := { ch.keg with downLimit := v } }
  else ch

/-- io 0x1C00 to 0x1C4F, written by the controller: an OUT to C2H_MBOX sends vector 256. -/
def writeHostReg (h : Hub) (a : Nat) (v : Word) (ch : Chan) : Chan :=
  if a = 0x1C01 then { ch with host := { ch.host with hwin := v.extractLsb' 15 5 } }
  else if a = 0x1C03 then chanVec { ch with host := { ch.host with c2h := v } } 256
  else if a = 0x1C44 then { ch with pwr := { ch.pwr with cmp0 := v } }
  else if a = 0x1C45 then { ch with pwr := { ch.pwr with cmp1 := v } }
  else if a = 0x1C46 then writeCmpCtl h v ch
  else if a = 0x1C48 then { ch with pwr := { ch.pwr with stepped := ch.pwr.stepped && !bit v 3 } }
  else ch

/-- Arm a capture: LATE is set when its op has already passed the point; the shadow cells of the last one are given up
(R408). (DEDUCED, log 95) -/
def armCapture (ch : Chan) : Chan :=
  let passed := decide (ch.seq.stepcount.toNat > ch.err.capStep.toNat) && !captureSaved ch
    && (match ch.seq.cur with
      | some x => decide (x.step ≠ ch.err.capStep) || decide (x.ucount.toNat > ch.err.capU.toNat)
      | none => true)
  { ch with err := { ch.err with capState := 1, capLate := ch.err.capLate || passed }, shadow := none }

/-- CANCEL disarms a capture. (DEDUCED, log 95) -/
def cancelCapture (ch : Chan) : Chan :=
  if ch.err.capState = 1 then { ch with err := { ch.err with capState := 0 } } else ch

/-- A write of CAP_CTL: only CANCEL acts while ARMED or FROZEN. One write that cancels and arms leaves ARM 1, and the
capture armed (R8). -/
def writeCapCtl (v : Word) (ch : Chan) : Chan :=
  if ch.err.capState = 3 ∨ (ch.err.capState = 1 ∧ bit v 2 = false) then ch
  else if ch.err.capState = 1 then (if bit v 0 then armCapture (cancelCapture ch) else cancelCapture ch)
  else
    let ch := { ch with err := { ch.err with capFreeze := bit v 1 } }
    if bit v 0 then armCapture ch else ch

/-- The CAP registers are ignored while a capture is ARMED or FROZEN. -/
def capWritable (ch : Chan) : Bool := decide (ch.err.capState ≠ 1 ∧ ch.err.capState ≠ 3)

/-- io 0x1C80 to 0x1CCF. -/
def writeErrReg (a : Nat) (v : Word) (ch : Chan) : Chan :=
  let e := ch.err
  if a = 0x1C80 then
    { ch with err := { e with
      ce := e.ce && !bit v 0, ucc := e.ucc && !bit v 1, partnerFenced := e.partnerFenced && !bit v 2 } }
  else if a = 0x1C88 then writeCapCtl v ch
  else if a = 0x1C89 then
    (if capWritable ch then { ch with err := { e with capStep := (e.capStep.extractLsb' 32 32 : Word) ++ v } } else ch)
  else if a = 0x1C8A then
    (if capWritable ch then { ch with err := { e with capStep := v ++ (e.capStep.setWidth 32 : Word) } } else ch)
  else if a = 0x1C8B then (if capWritable ch then { ch with err := { e with capU := v } } else ch)
  else if a = 0x1C8C then { ch with err := { e with capLate := e.capLate && !bit v 2 } }
  else if a = 0x1CC0 then writePwrCtl v ch
  else ch

/-- A write of `v` to io address `a` takes effect. Fields that are not written by their access code, and addresses that
the map does not assign, are unchanged (R7, R9). The stack pointers and bounds are written by `writeStackPtr`. -/
def ioWrite (h : Hub) (a : Nat) (v : Word) (ch : Chan) : Chan :=
  if a < 0x200 then writeCtlReg a v ch
  else if a < 0x240 then writeArrayReg a v ch
  else if a < 0x280 then writeFmtReg a v ch
  else if a < 0x400 then writeLauReg a v ch
  else if a < 0x800 then writeMemReg a v ch
  else if a < 0x1000 then writeRackReg a v ch
  else if a < 0x1400 then ch
  else if a < 0x1800 then writeMillReg a v ch
  else if a < 0x1C00 then writeKegReg h a v ch
  else if a < 0x1C80 then writeHostReg h a v ch
  else writeErrReg a v ch

/-! ### Stack pointers and bounds (R174) -/

/-- The register is a stack pointer or bound. -/
def isStackPtr (a : Nat) : Bool := decide (0x108 ≤ a ∧ a ≤ 0x10A) || decide (0x10C ≤ a ∧ a ≤ 0x10E)

/-- Every in-core data cell spills (R172, R173). -/
def spillData (ch : Chan) : Except TrapInfo Chan :=
  let dsp := ch.ctl.dsp.toNat
  let n := ch.ctl.ds.length
  if n = 0 then .ok ch
  else if dsp + 4 * n > min ch.ctl.dspLimit.toNat dmemSize then .error { vec := 4, cause := 1, addr := 0 }
  else
    let ch' := spillCells ch.ctl.ds.reverse dsp ch
    .ok { ch' with ctl := { ch'.ctl with ds := [], dsp := BitVec.ofNat 32 (dsp + 4 * n) } }

/-- Every in-core return cell spills. -/
def spillReturn (ch : Chan) : Except TrapInfo Chan :=
  let rsp := ch.ctl.rsp.toNat
  let n := ch.ctl.rs.length
  if n = 0 then .ok ch
  else if rsp + 4 * n > min ch.ctl.rspLimit.toNat dmemSize then .error { vec := 4, cause := 3, addr := 0 }
  else
    let ch' := spillCells ch.ctl.rs.reverse rsp ch
    .ok { ch' with ctl := { ch'.ctl with rs := [], rsp := BitVec.ofNat 32 (rsp + 4 * n) } }

/-- Replace a stack pointer or bound by bits 19 to 2 of a value. -/
def setStackPtr (a : Nat) (v : Word) (t : Ctl) : Ctl :=
  let x := v &&& 0xFFFFC#32
  if a = 0x108 then { t with dsp := x }
  else if a = 0x109 then { t with dspBase := x }
  else if a = 0x10A then { t with dspLimit := x }
  else if a = 0x10C then { t with rsp := x }
  else if a = 0x10D then { t with rspBase := x }
  else { t with rspLimit := x }

/-- A write of a stack pointer or bound: the in-core cells of its stack spill first, and the core is then empty. -/
def writeStackPtr (a : Nat) (v : Word) (ch : Chan) : Except TrapInfo Chan :=
  match if a ≤ 0x10A then spillData ch else spillReturn ch with
  | .error e => .error e
  | .ok ch => .ok { ch with ctl := setStackPtr a v ch.ctl }

end Sys2Proof.Machine
end

