-- ==== Sys2Proof/Machine/CtlIo.lean ====
section
/-! DEFINITION. IN and OUT, and the register writes that the table lists as steps of their own (R49, R118, R119, R150,
R163, R166, R174, R186, R200, R215, R243). -/

namespace Sys2Proof.Machine

/-- DACCESS with cause IO (R178). -/
def ioTrap (a : Word) : TrapInfo := { vec := 7, cause := 3, addr := a }

/-! ### IN and INS -/

/-- Read a register that the map assigns; the low half of a split register latches (R94, R150, R243).
(DEDUCED, log 105) -/
def ioIn (h : Hub) (a : Word) (ch : Chan) : Except TrapInfo (List Word × Chan) :=
  match if a.toNat < 0x10000 then ioRead h ch a.toNat else none with
  | none => .error (ioTrap a)
  | some v => .ok ([v], ioLatch h a.toNat ch)

/-- IN i16 ( -- x ) (R215). -/
def execIoIn (c : Ch) (i : Half) (s : State) : Host.Outcome State Fault Refusal :=
  ctl c 3 (stackOp 0 fun _ ch => ioIn s.hub (i.setWidth 32) ch) s

/-- INS ( ioaddr -- x ) (R215). -/
def execIns (c : Ch) (s : State) : Host.Outcome State Fault Refusal :=
  ctl c 1 (stackOp 1 fun xs ch => ioIn s.hub (xs.headD 0) ch) s

/-! ### OUT and OUTS -/

/-- A doorbell that this controller writes is one that its RFENCE samples, and an SQ value is one up to which it waits,
beside those written before that the engine has not reached (R201); a value out of range is ignored. -/
def noteDoorbell (a : Nat) (v : Word) (ch : Chan) : Chan :=
  let q := a % 256
  let x := fld v 0 16
  if (a / 256 = 8 ∨ a / 256 = 9) ∧ x < qpDepth (qpAt ch q) then
    let cq := decide (a / 256 = 9)
    { ch with ev := { ch.ev with
      rung := if (q, cq) ∈ ch.ev.rung then ch.ev.rung else ch.ev.rung ++ [(q, cq)]
      doorbells := if cq then ch.ev.doorbells else (ch.ev.doorbells.filter fun d => decide (d ≠ (q, x))) ++ [(q, x)] } }
  else ch

/-- What an OUT does when nothing stalls it (R174, R243). (DEDUCED, log 26) -/
def outEffect (h : Hub) (a : Nat) (v : Word) (ch : Chan) : Except TrapInfo Chan :=
  if isStackPtr a then writeStackPtr a v ch else .ok (ioWrite h a v (noteDoorbell a v ch))

/-- The OUT requests DOZE, and stalls until the channel has left it or the request is cancelled (R417, R419). -/
def asksDoze (a : Nat) (v : Word) : Bool := decide (a = 0x1CC0) && bit v 1

/-- An OUT of `v` to `a` whose `k` operands are in core: it takes effect, or it waits with them in place (R200). -/
def outTo (h : Hub) (k : Nat) (a v : Word) (ch : Chan) : Except TrapInfo Done :=
  if (decide (a.toNat < 0x10000) && ioAssigned h ch a.toNat) = false then .error (ioTrap a)
  else if outBlocked ch a.toNat v then .ok (.wait ch (.out (a.setWidth 16) v (decide (k = 2))))
  else if asksDoze a.toNat v then .ok (.wait (writePwrCtl v ch) (.out (a.setWidth 16) v (decide (k = 2))))
  else
    match outEffect h a.toNat v (takeData ch k).2 with
    | .error e => .error e
    | .ok ch => .ok (.seq ch)

/-- UNDEF with cause PREFIX for a repeated OUT to a register of R186; the frame holds the address of the REP. -/
def prefixTrap : TrapInfo := { vec := 1, cause := 4, addr := 0, back := 3 }

/-- OUT i16 ( x -- ). -/
def outImm (h : Hub) (i : Half) (ch : Chan) : Except TrapInfo Done :=
  if ch.ctl.repact && repBarred i.toNat then .error prefixTrap
  else
    match fillData ch 1 with
    | .error e => .error e
    | .ok ch => trapIn ch (outTo h 1 (i.setWidth 32) (ch.ctl.ds.headD 0) ch)

/-- OUTS ( x ioaddr -- ): the address is checked under R186 when it would execute. (DEDUCED, log 20) -/
def outStack (h : Hub) (ch : Chan) : Except TrapInfo Done :=
  match fillData ch 1 with
  | .error e => .error e
  | .ok ch1 =>
    if ch1.ctl.repact && repBarred (ch1.ctl.ds.headD 0).toNat then .error (metIn ch1 prefixTrap)
    else
      match fillData ch 2 with
      | .error e => .error e
      | .ok ch => trapIn ch (outTo h 2 (ch.ctl.ds.headD 0) (ch.ctl.ds.getD 1 0) ch)

/-- OUT (R215). -/
def execIoOut (c : Ch) (i : Half) (s : State) : Host.Outcome State Fault Refusal :=
  .next (shareWake c s (s.onOne c (runInstr 3 (outImm s.hub i))))

/-- OUTS (R215). -/
def execOuts (c : Ch) (s : State) : Host.Outcome State Fault Refusal :=
  .next (shareWake c s (s.onOne c (runInstr 1 (outStack s.hub))))

/-- A stalled OUT may complete: its register can take the write, or its DOZE request has been met or cancelled. -/
def outMayEnd (ch : Chan) (a : Nat) (v : Word) : Bool :=
  if asksDoze a v then !ch.pwr.reqCtl else !outBlocked ch a v

/-- A stalled OUT completes, once: it pops its operands and takes effect; one that requested DOZE has had its effect, and the
stall of CH_PWR_CTL_DOZE, a register write on its own, only ends. -/
def outStallEnd (h : Hub) (ch : Chan) : Chan :=
  match ch.ev.wait with
  | some { kind := .out a v stk, len := n } =>
    if chanRunning ch && outMayEnd ch a.toNat v then
      let popped := (takeData ch (if stk then 2 else 1)).2
      if asksDoze a.toNat v then endWait popped n
      else
        match outEffect h a.toNat v popped with
        | .error e => syncTrap ch e
        | .ok ch => endWait ch n
    else ch
  | some { kind := .doze, len := _ } =>
    if chanRunning ch && !ch.pwr.reqCtl then { ch with ev := { ch.ev with wait := none } } else ch
  | _ => ch

/-- OUT_STALL_END (R199, R200). -/
def execOutStallEnd (c : Ch) (s : State) : Host.Outcome State Fault Refusal := onChan c (outStallEnd s.hub) s

/-! ### Register writes as steps -/

/-- A write of the controller reaches its register; where R49, R118, R163, R166 or R245 holds it back, nothing changes
yet. (DEDUCED, log 26) -/
def writeReg (h : Hub) (a : Nat) (v : Word) (ch : Chan) : Chan :=
  if chanRunning ch = false ∨ ioAssigned h ch a = false ∨ outBlocked ch a v = true then ch
  else
    match outEffect h a v ch with
    | .error e => syncTrap ch e
    | .ok ch => ch

/-- REGISTER_WRITE (R7). -/
def execRegisterWrite (c : Ch) (a : Half) (v : Word) (s : State) : Host.Outcome State Fault Refusal :=
  .next (shareWake c s (s.onOne c (writeReg s.hub a.toNat v)))

/-- ARRAY_EDGE_CTL_WRITE (R49). -/
def execArrayEdgeCtlWrite (c : Ch) (v : Word) (s : State) : Host.Outcome State Fault Refusal :=
  onChan c (writeReg s.hub 0x200 v) s

/-- GFD_WRITE: cell `n` of the descriptors, A of GFDk at 2k and B at 2k + 1 (R118). -/
def execGfdWrite (c : Ch) (n : Fin 32) (v : Word) (s : State) : Host.Outcome State Fault Refusal :=
  onChan c (writeReg s.hub (0x240 + n.val) v) s

/-- GFD_PRESET (R119). -/
def execGfdPreset (c : Ch) (v : Word) (s : State) : Host.Outcome State Fault Refusal :=
  onChan c (writeReg s.hub 0x260 v) s

/-- ARRAY_SEED_LO_WRITE (R150). -/
def execArraySeedLoWrite (c : Ch) (v : Word) (s : State) : Host.Outcome State Fault Refusal :=
  onChan c (writeReg s.hub 0x262 v) s

/-- ARRAY_SEED_HI_WRITE (R150). -/
def execArraySeedHiWrite (c : Ch) (v : Word) (s : State) : Host.Outcome State Fault Refusal :=
  onChan c (writeReg s.hub 0x263 v) s

/-- ARRAY_SR_EPOCH_LO_WRITE (R150). -/
def execArraySrEpochLoWrite (c : Ch) (v : Word) (s : State) : Host.Outcome State Fault Refusal :=
  onChan c (writeReg s.hub 0x264 v) s

/-- ARRAY_SR_EPOCH_HI_WRITE (R150). -/
def execArraySrEpochHiWrite (c : Ch) (v : Word) (s : State) : Host.Outcome State Fault Refusal :=
  onChan c (writeReg s.hub 0x265 v) s

/-- ARRAY_SR_CTL_MARK: a write of 1 to MARK. -/
def execArraySrCtlMark (c : Ch) (s : State) : Host.Outcome State Fault Refusal := onChan c (writeReg s.hub 0x266 1) s

/-- LSNAP_WRITE (R163). -/
def execLsnapWrite (c : Ch) (n : Fin 140) (v : Word) (s : State) : Host.Outcome State Fault Refusal :=
  onChan c (writeReg s.hub (0x300 + n.val) v) s

/-- LAUTER_XDEST_WRITE (R166). -/
def execLauterXdestWrite (c : Ch) (n : Fin 8) (v : Word) (s : State) : Host.Outcome State Fault Refusal :=
  onChan c (writeReg s.hub (0x288 + n.val) v) s

/-- LRX_EXPECT_WRITE (R166). -/
def execLrxExpectWrite (c : Ch) (v : Word) (s : State) : Host.Outcome State Fault Refusal :=
  onChan c (writeReg s.hub 0x284 v) s

/-- INT_SET: the program raises lines 12 to 15 (R197). -/
def execIntSet (c : Ch) (v : Word) (s : State) : Host.Outcome State Fault Refusal := onChan c (writeReg s.hub 0x106 v) s

/-- STACK_POINTER_WRITE: a write of io 0x0108 to 0x010A or 0x010C to 0x010E; another address is none (R174). -/
def execStackPointerWrite (c : Ch) (a : Half) (v : Word) (s : State) : Host.Outcome State Fault Refusal :=
  onChan c (fun ch => if isStackPtr a.toNat then writeReg s.hub a.toNat v ch else ch) s

/-- SPLIT_REGISTER_LOW_READ: a read of a low half latches its high half (R94, R150). -/
def execSplitRegisterLowRead (c : Ch) (a : Half) (s : State) : Host.Outcome State Fault Refusal :=
  onChan c (whileRunning (ioLatch s.hub a.toNat)) s

end Sys2Proof.Machine
end

