-- ==== Sys2Proof/Machine/CtlMem.lean ====
section
/-! DEFINITION. The scalar DMEM and IMEM accesses (R177 to R179, R215). -/

namespace Sys2Proof.Machine

/-- LD.B: a signed byte (R215). -/
def execLdB (c : Ch) (am : Byte) (d : Half) (s : State) : Host.Outcome State Fault Refusal :=
  ctl c (amLen 1 am) (loadOp 1 true am d) s

/-- LD.BU: an unsigned byte (R215). -/
def execLdBu (c : Ch) (am : Byte) (d : Half) (s : State) : Host.Outcome State Fault Refusal :=
  ctl c (amLen 1 am) (loadOp 1 false am d) s

/-- LD.H: a signed half-word (R215). -/
def execLdH (c : Ch) (am : Byte) (d : Half) (s : State) : Host.Outcome State Fault Refusal :=
  ctl c (amLen 1 am) (loadOp 2 true am d) s

/-- LD.HU: an unsigned half-word (R215). -/
def execLdHu (c : Ch) (am : Byte) (d : Half) (s : State) : Host.Outcome State Fault Refusal :=
  ctl c (amLen 1 am) (loadOp 2 false am d) s

/-- LD.W: a word, from DMEM or an alias window (R177, R215). -/
def execLdW (c : Ch) (am : Byte) (d : Half) (s : State) : Host.Outcome State Fault Refusal :=
  ctl c (amLen 1 am) (loadOp 4 false am d) s

/-- ST.B: the low byte (R215). -/
def execStB (c : Ch) (am : Byte) (d : Half) (s : State) : Host.Outcome State Fault Refusal :=
  ctl c (amLen 1 am) (storeOp 1 am d) s

/-- ST.H: the low half-word (R215). -/
def execStH (c : Ch) (am : Byte) (d : Half) (s : State) : Host.Outcome State Fault Refusal :=
  ctl c (amLen 1 am) (storeOp 2 am d) s

/-- ST.W: the word; in an alias window a bit-set or bit-clear operation (R177, R215). -/
def execStW (c : Ch) (am : Byte) (d : Half) (s : State) : Host.Outcome State Fault Refusal :=
  ctl c (amLen 1 am) (storeOp 4 am d) s

/-- IREAD ( ia -- w ): ALIGN unless `ia` is a multiple of 4, DACCESS RANGE at 0x8_0000 and above, DACCESS ECC for an
uncorrectable word (R178, R215, R240). -/
def ireadOp (ch : Chan) : Except TrapInfo Chan :=
  stackOp 1 (fun xs ch =>
    let ia := xs.headD 0
    let a := ia.toNat
    if a % 4 ≠ 0 then .error { vec := 2, cause := 1, addr := ia }
    else if a ≥ imemSize then .error { vec := 7, cause := 1, addr := ia }
    else if markUe ch.mem.imarks (a / 4) then .error { vec := 7, cause := 4, addr := ia }
    else .ok ([memWord ch.mem.imem a], imemCheck ch (a / 4))) ch

/-- IREAD (R215). -/
def execIread (c : Ch) (s : State) : Host.Outcome State Fault Refusal := ctl c 1 ireadOp s

end Sys2Proof.Machine
end

