-- ==== Sys2Proof/Machine/CtlShort.lean ====
section
/-! DEFINITION. The short-vector instructions (R221). -/

namespace Sys2Proof.Machine

/-- Lane `i` of width `w` of a cell. -/
def lane (w : Nat) (x : Word) (i : Nat) : Nat := (x.toNat / 2 ^ (w * i)) % 2 ^ w

/-- A cell from its lanes of width `w`. -/
def fromLanes (w : Nat) (f : Nat → Nat) : Word :=
  BitVec.ofNat 32 ((List.range (32 / w)).foldl (fun acc i => acc + f i % 2 ^ w * 2 ^ (w * i)) 0)

/-- A lane-wise instruction on two cells. -/
def lanes2 (w : Nat) (g : Nat → Nat → Nat) : Chan → Except TrapInfo Chan :=
  cells 2 fun xs => [fromLanes w fun i => g (lane w (second xs) i) (lane w (top xs) i)]

/-- Wrapping lane sum. -/
def laneAdd (_w : Nat) (a b : Nat) : Nat := a + b

/-- Wrapping lane difference. -/
def laneSub (w : Nat) (a b : Nat) : Nat := a + 2 ^ w - b

/-- The signed range of a lane as its bits. -/
def laneClampS (w : Nat) (x : Int) : Nat := uval w (clampInt (-(2 ^ (w - 1) : Nat)) ((2 ^ (w - 1) : Nat) - 1) x)

/-- Signed saturating sum. -/
def laneAdds (w : Nat) (a b : Nat) : Nat := laneClampS w (sval w a + sval w b)

/-- Unsigned saturating sum. -/
def laneAddus (w : Nat) (a b : Nat) : Nat := min (a + b) (2 ^ w - 1)

/-- Signed saturating difference. -/
def laneSubs (w : Nat) (a b : Nat) : Nat := laneClampS w (sval w a - sval w b)

/-- Unsigned difference, saturated at 0. -/
def laneSubus (_w : Nat) (a b : Nat) : Nat := a - b

/-- All ones or 0. -/
def laneMask (w : Nat) (b : Bool) : Nat := if b then 2 ^ w - 1 else 0

/-- Equality mask. -/
def laneCeq (w : Nat) (a b : Nat) : Nat := laneMask w (decide (a = b))

/-- Signed greater-than mask. -/
def laneCgt (w : Nat) (a b : Nat) : Nat := laneMask w (decide (sval w b < sval w a))

/-- Signed minimum. -/
def laneMins (w : Nat) (a b : Nat) : Nat := if sval w a < sval w b then a else b

/-- Signed maximum. -/
def laneMaxs (w : Nat) (a b : Nat) : Nat := if sval w a < sval w b then b else a

/-- Unsigned minimum. -/
def laneMinu (_w : Nat) (a b : Nat) : Nat := min a b

/-- Unsigned maximum. -/
def laneMaxu (_w : Nat) (a b : Nat) : Nat := max a b

/-- The low half of a lane product. -/
def laneMul (_w : Nat) (a b : Nat) : Nat := a * b

/-- The rounded unsigned average, without overflow. -/
def laneAvgu (_w : Nat) (a b : Nat) : Nat := (a + b + 1) / 2

/-- A dot product added to an accumulator, modulo 2^32. -/
def dot (w : Nat) (signed : Bool) : Chan → Except TrapInfo Chan :=
  cells 3 fun xs =>
    let term := fun i =>
      if signed then sval w (lane w (second xs) i) * sval w (lane w (top xs) i)
      else ((lane w (second xs) i * lane w (top xs) i : Nat) : Int)
    [xs.getD 2 0 + BitVec.ofInt 32 ((List.range (32 / w)).foldl (fun acc i => acc + term i) 0)]

/-- ADD.B4 (R221). -/
def execAddB4 (c : Ch) (s : State) : Host.Outcome State Fault Refusal :=
  ctl c 1 (lanes2 8 (laneAdd 8)) s

/-- SUB.B4 (R221). -/
def execSubB4 (c : Ch) (s : State) : Host.Outcome State Fault Refusal :=
  ctl c 1 (lanes2 8 (laneSub 8)) s

/-- ADDS.B4 (R221). -/
def execAddsB4 (c : Ch) (s : State) : Host.Outcome State Fault Refusal :=
  ctl c 1 (lanes2 8 (laneAdds 8)) s

/-- ADDUS.B4 (R221). -/
def execAddusB4 (c : Ch) (s : State) : Host.Outcome State Fault Refusal :=
  ctl c 1 (lanes2 8 (laneAddus 8)) s

/-- SUBS.B4 (R221). -/
def execSubsB4 (c : Ch) (s : State) : Host.Outcome State Fault Refusal :=
  ctl c 1 (lanes2 8 (laneSubs 8)) s

/-- SUBUS.B4 (R221). -/
def execSubusB4 (c : Ch) (s : State) : Host.Outcome State Fault Refusal :=
  ctl c 1 (lanes2 8 (laneSubus 8)) s

/-- CEQ.B4 (R221). -/
def execCeqB4 (c : Ch) (s : State) : Host.Outcome State Fault Refusal :=
  ctl c 1 (lanes2 8 (laneCeq 8)) s

/-- CGT.B4 (R221). -/
def execCgtB4 (c : Ch) (s : State) : Host.Outcome State Fault Refusal :=
  ctl c 1 (lanes2 8 (laneCgt 8)) s

/-- MINS.B4 (R221). -/
def execMinsB4 (c : Ch) (s : State) : Host.Outcome State Fault Refusal :=
  ctl c 1 (lanes2 8 (laneMins 8)) s

/-- MAXS.B4 (R221). -/
def execMaxsB4 (c : Ch) (s : State) : Host.Outcome State Fault Refusal :=
  ctl c 1 (lanes2 8 (laneMaxs 8)) s

/-- MINU.B4 (R221). -/
def execMinuB4 (c : Ch) (s : State) : Host.Outcome State Fault Refusal :=
  ctl c 1 (lanes2 8 (laneMinu 8)) s

/-- MAXU.B4 (R221). -/
def execMaxuB4 (c : Ch) (s : State) : Host.Outcome State Fault Refusal :=
  ctl c 1 (lanes2 8 (laneMaxu 8)) s

/-- MUL.B4 (R221). -/
def execMulB4 (c : Ch) (s : State) : Host.Outcome State Fault Refusal :=
  ctl c 1 (lanes2 8 (laneMul 8)) s

/-- AVGU.B4 (R221). -/
def execAvguB4 (c : Ch) (s : State) : Host.Outcome State Fault Refusal :=
  ctl c 1 (lanes2 8 (laneAvgu 8)) s

/-- DOTS.B4: signed (R221). -/
def execDotsB4 (c : Ch) (s : State) : Host.Outcome State Fault Refusal :=
  ctl c 1 (dot 8 true) s

/-- DOTU.B4: unsigned (R221). -/
def execDotuB4 (c : Ch) (s : State) : Host.Outcome State Fault Refusal :=
  ctl c 1 (dot 8 false) s

/-- ADD.H2 (R221). -/
def execAddH2 (c : Ch) (s : State) : Host.Outcome State Fault Refusal :=
  ctl c 1 (lanes2 16 (laneAdd 16)) s

/-- SUB.H2 (R221). -/
def execSubH2 (c : Ch) (s : State) : Host.Outcome State Fault Refusal :=
  ctl c 1 (lanes2 16 (laneSub 16)) s

/-- ADDS.H2 (R221). -/
def execAddsH2 (c : Ch) (s : State) : Host.Outcome State Fault Refusal :=
  ctl c 1 (lanes2 16 (laneAdds 16)) s

/-- ADDUS.H2 (R221). -/
def execAddusH2 (c : Ch) (s : State) : Host.Outcome State Fault Refusal :=
  ctl c 1 (lanes2 16 (laneAddus 16)) s

/-- SUBS.H2 (R221). -/
def execSubsH2 (c : Ch) (s : State) : Host.Outcome State Fault Refusal :=
  ctl c 1 (lanes2 16 (laneSubs 16)) s

/-- SUBUS.H2 (R221). -/
def execSubusH2 (c : Ch) (s : State) : Host.Outcome State Fault Refusal :=
  ctl c 1 (lanes2 16 (laneSubus 16)) s

/-- CEQ.H2 (R221). -/
def execCeqH2 (c : Ch) (s : State) : Host.Outcome State Fault Refusal :=
  ctl c 1 (lanes2 16 (laneCeq 16)) s

/-- CGT.H2 (R221). -/
def execCgtH2 (c : Ch) (s : State) : Host.Outcome State Fault Refusal :=
  ctl c 1 (lanes2 16 (laneCgt 16)) s

/-- MINS.H2 (R221). -/
def execMinsH2 (c : Ch) (s : State) : Host.Outcome State Fault Refusal :=
  ctl c 1 (lanes2 16 (laneMins 16)) s

/-- MAXS.H2 (R221). -/
def execMaxsH2 (c : Ch) (s : State) : Host.Outcome State Fault Refusal :=
  ctl c 1 (lanes2 16 (laneMaxs 16)) s

/-- MINU.H2 (R221). -/
def execMinuH2 (c : Ch) (s : State) : Host.Outcome State Fault Refusal :=
  ctl c 1 (lanes2 16 (laneMinu 16)) s

/-- MAXU.H2 (R221). -/
def execMaxuH2 (c : Ch) (s : State) : Host.Outcome State Fault Refusal :=
  ctl c 1 (lanes2 16 (laneMaxu 16)) s

/-- MUL.H2 (R221). -/
def execMulH2 (c : Ch) (s : State) : Host.Outcome State Fault Refusal :=
  ctl c 1 (lanes2 16 (laneMul 16)) s

/-- AVGU.H2 (R221). -/
def execAvguH2 (c : Ch) (s : State) : Host.Outcome State Fault Refusal :=
  ctl c 1 (lanes2 16 (laneAvgu 16)) s

/-- DOTS.H2: signed (R221). -/
def execDotsH2 (c : Ch) (s : State) : Host.Outcome State Fault Refusal :=
  ctl c 1 (dot 16 true) s

/-- DOTU.H2: unsigned (R221). -/
def execDotuH2 (c : Ch) (s : State) : Host.Outcome State Fault Refusal :=
  ctl c 1 (dot 16 false) s

/-- PERM.B4: lane i of the result is lane i8[2i + 1:2i] (R221). -/
def execPermB4 (c : Ch) (i : Byte) (s : State) : Host.Outcome State Fault Refusal :=
  ctl c 2 (cells 1 fun xs => [fromLanes 8 fun k => lane 8 (top xs) (fld i (2 * k) 2)]) s

/-- PERM.H2: lane i of the result is lane i8[i]; other bits of i8 raise UNDEF FIELD (R205, R221). -/
def execPermH2 (c : Ch) (i : Byte) (s : State) : Host.Outcome State Fault Refusal :=
  ctl c 2 (fun ch =>
    if fld i 2 6 ≠ 0 then .error (undef 3)
    else cells 1 (fun xs => [fromLanes 16 fun k => lane 16 (top xs) (fld i k 1)]) ch) s

end Sys2Proof.Machine
end

