-- ==== Sys2Proof/Machine/CtlSys.lean ====
section
/-! DEFINITION. The array, fence and interrupt-control instructions and the ends of their waits (R106, R108, R161, R198
to R201, R222 to R224). -/

namespace Sys2Proof.Machine

/-- What the controller waits for, while its channel runs. -/
def waitsFor (ch : Chan) : Option Wait := if chanRunning ch then ch.ev.wait else none

/-! ### AOP (R19, R198) -/

/-- Check an AOP address: ALIGN, then the first of its four words that lies outside plain DMEM decides, ALIAS in a
window and RANGE beyond both (R178, R222). So one that starts in DMEM and runs into the bit-set window raises ALIAS, with
the address of the first word there. (DEDUCED, log 127) -/
def aopCheck (a : Word) : Option TrapInfo :=
  if a.toNat % 4 ≠ 0 then some { vec := 2, cause := 1, addr := a }
  else if a.toNat + 16 ≤ dmemSize then none
  else
    let first := max a.toNat dmemSize
    some { vec := 7, cause := if first < 3 * dmemSize then 2 else 1, addr := BitVec.ofNat 32 first }

/-- Read the four cells of an op, bits 31 to 0 at the lowest address. -/
def aopRead (ch : Chan) (a : Nat) : Except TrapInfo (Quad × Chan) :=
  match dmemRead ch a with
  | .error e => .error e
  | .ok (w0, ch) =>
    match dmemRead ch (a + 4) with
    | .error e => .error e
    | .ok (w1, ch) =>
      match dmemRead ch (a + 8) with
      | .error e => .error e
      | .ok (w2, ch) =>
        match dmemRead ch (a + 12) with
        | .error e => .error e
        | .ok (w3, ch) => .ok (w3 ++ w2 ++ w1 ++ w0, ch)

/-- AOP with its address in core: the op enters the queue, or the controller waits for an entry. (DEDUCED, log 23) -/
def aopBody (ch : Chan) : Except TrapInfo Done :=
  match fillData ch 1 with
  | .error e => .error e
  | .ok ch =>
    let a := ch.ctl.ds.headD 0
    match aopCheck a with
    | some e => .error (metIn ch e)
    | none =>
      match aopRead ch a.toNat with
      | .error e => .error e
      | .ok (q, ch') =>
        if ch.seq.queue.length ≥ 64 then .ok (.wait ch .aop)
        else
          let ch' := (takeData ch' 1).2
          .ok (.seq { ch' with seq := { ch'.seq with queue := ch'.seq.queue ++ [q] } })

/-- AOP (R198). -/
def execAop (c : Ch) (s : State) : Host.Outcome State Fault Refusal := onChan c (runInstr 1 aopBody) s

/-- A waiting instruction executes again from its start, and completes, waits on or traps. -/
def retryWait (body : Chan → Except TrapInfo Done) (len : Nat) (ch : Chan) : Chan :=
  match body ch with
  | .error e => syncTrap ch e
  | .ok (.seq ch') => endWait ch' len
  | .ok (.jump ch') => afterInstr { ch' with ev := { ch'.ev with wait := none } }
  | .ok (.wait _ _) => ch

/-- An entry of the array queue is free for the AOP that waits. (DEDUCED, log 23) -/
def aopFree (ch : Chan) : Chan :=
  match waitsFor ch with
  | some { kind := .aop, len := n } => retryWait aopBody n ch
  | _ => ch

/-- AOP_QUEUE_ENTRY_FREE (R19). -/
def execAopQueueEntryFree (c : Ch) (s : State) : Host.Outcome State Fault Refusal := onChan c aopFree s

/-! ### ARED (R161) -/

/-- The op whose state is saved, if any. -/
def savedOp (ch : Chan) : Option Quad :=
  if ch.trap.state = 1 ∨ ch.trap.state = 2 then some (loadBlock ch.trap.save ch.trap.saveSeed ch.trap.saveDraw).word
  else none

/-- Ops that have been queued and have not ended: queued, running or saved. -/
def openOps (ch : Chan) : List Quad :=
  ch.seq.queue ++ (ch.seq.cur.map fun x => x.word).toList ++ (savedOp ch).toList

/-- Results of SNAP and ROUND that the controller does not see yet (R161). While no op counts micro-cycles, they pass as they
may. (DESIGN CHOICE, log 3) -/
def unseen (ch : Chan) : List (BitVec 6 × Nat) := if ch.seq.cur.isNone then [] else ch.lau.shown

/-- Every op has ended, and its lauter effects are visible. -/
def allEnded (ch : Chan) : Bool :=
  decide (openOps ch = []) && decide (ch.lau.roots = []) && decide (ch.lau.gors = []) && decide (unseen ch = [])

/-- Every op with RTAG `t` has ended, and its lauter effects are visible. -/
def tagEnded (ch : Chan) (t : BitVec 6) : Bool :=
  (openOps ch).all (fun q => decide (opRtag q ≠ t)) && ch.lau.roots.all (fun r => decide (r.tag ≠ t))
    && ch.lau.gors.all (fun g => decide (g.tag ≠ t)) && (unseen ch).all fun p => decide (p.1 ≠ t)

/-- What ARED waits for; none for an operand that it does not take (R205). -/
def aredReady (ch : Chan) (n : Word) : Option Bool :=
  if n.toNat < 64 then some (tagEnded ch (n.setWidth 6))
  else if n = 0x100 then some (decide (ch.lau.rxCount.toNat ≥ ch.lau.expect.toNat))
  else if n = 0x101 then some (allEnded ch)
  else none

/-- ARED ( n -- ). -/
def aredBody (ch : Chan) : Except TrapInfo Done :=
  match fillData ch 1 with
  | .error e => .error e
  | .ok ch =>
    match aredReady ch (ch.ctl.ds.headD 0) with
    | none => .error (metIn ch (undef 5))
    | some false => .ok (.wait ch .ared)
    | some true => .ok (.seq (takeData ch 1).2)

/-- ARED (R161). -/
def execAred (c : Ch) (s : State) : Host.Outcome State Fault Refusal := onChan c (runInstr 1 aredBody) s

/-- ARED_WAIT_END (R161). -/
def execAredWaitEnd (c : Ch) (s : State) : Host.Outcome State Fault Refusal :=
  onChan c (fun ch =>
    match waitsFor ch with
    | some { kind := .ared, len := n } => retryWait aredBody n ch
    | _ => ch) s

/-! ### AFENCE and RFENCE (R199, R201, R233) -/

/-- The array queue is empty, no op is executing or restoring, and no root effect is in flight. -/
def afenceReady (ch : Chan) : Bool := arrayEmpty ch && decide (ch.lau.roots = [])

/-- AFENCE ( -- ). -/
def afenceBody (ch : Chan) : Except TrapInfo Done :=
  if afenceReady ch then .ok (.seq ch) else .ok (.wait ch .afence)

/-- AFENCE (R199). -/
def execAfence (c : Ch) (s : State) : Host.Outcome State Fault Refusal := onChan c (runInstr 1 afenceBody) s

/-- AFENCE_WAIT_END (R199). -/
def execAfenceWaitEnd (c : Ch) (s : State) : Host.Outcome State Fault Refusal :=
  onChan c (fun ch =>
    match waitsFor ch with
    | some { kind := .afence, len := n } => retryWait afenceBody n ch
    | _ => ch) s

/-- Every entry that RFENCE covers has completed (R201, R274); a queue pair that is disabled fetches no more of them. -/
def rfenceDone (ch : Chan) (ws : List (Nat × Nat)) : Bool :=
  ch.rack.entries.all (fun e => !e.covered || entryComplete ch e)
    && ws.all fun w => decide (w.2 = 0) || !(qpAt ch w.1).enable

/-- RFENCE completes: the fetch buffer is emptied, so that fetches see what racking wrote to IMEM (R232, R233). -/
def rfenceEnd (ch : Chan) : Chan := { ch with mem := { ch.mem with fetchBuf := [] } }

/-- RFENCE ( -- ): the engine samples the doorbells that this controller wrote. -/
def rfenceBody (ch : Chan) : Except TrapInfo Done :=
  let r := rfenceMark ch
  if rfenceDone r.1 r.2 then .ok (.seq (rfenceEnd r.1)) else .ok (.wait r.1 (.rfence r.2))

/-- RFENCE (R201). -/
def execRfence (c : Ch) (s : State) : Host.Outcome State Fault Refusal := onChan c (runInstr 1 rfenceBody) s

/-- RFENCE_WAIT_END (R201). -/
def execRfenceWaitEnd (c : Ch) (s : State) : Host.Outcome State Fault Refusal :=
  onChan c (fun ch =>
    match waitsFor ch with
    | some { kind := .rfence ws, len := n } => if rfenceDone ch ws then endWait (rfenceEnd ch) n else ch
    | _ => ch) s

/-! ### YIELD (R106, R200) -/

/-- A YIELD request reaches the array: the status that is known at once, or the request that waits for its boundary.
One that finds another still open joins it. -/
def requestYield (ctlAsks : Bool) (ch : Chan) : Chan :=
  if ch.trap.state = 1 ∨ ch.trap.state = 2 then
    { ch with
      trap := { ch.trap with ystat := 1 }
      ev := { ch.ev with yieldAns := if ctlAsks then some 1 else ch.ev.yieldAns } }
  else if ch.seq.cur.isNone then answerYield (setStop ch 9 0 0) ctlAsks 2
  else
    match ch.trap.yreq with
    | some y => { ch with trap := { ch.trap with
        yreq := some { y with ctl := y.ctl || ctlAsks, mgmt := y.mgmt || !ctlAsks } } }
    | none => askYield ch ctlAsks (!ctlAsks)

/-- A YIELD receives its status. (DEDUCED, log 22) -/
def takeYield (ch : Chan) (st : BitVec 2) : Except TrapInfo Chan :=
  pushData { ch with
    ctl := { ch.ctl with ypend := false }
    ev := { ch.ev with yieldAns := none } } [st.setWidth 32]

/-- The status, when it is known, or the wait for it with YPEND set. -/
def yieldAnswer (ch : Chan) : Except TrapInfo Done :=
  match ch.ev.yieldAns with
  | none => .ok (.wait { ch with ctl := { ch.ctl with ypend := true } } .yield)
  | some st =>
    match takeYield ch st with
    | .error e => .error e
    | .ok ch => .ok (.seq ch)

/-- YIELD ( -- s ): while YPEND is 1 it waits for the status of the request already sent. Room for the result is checked
before a request is sent (R192). (DEDUCED, log 22) -/
def yieldBody (ch : Chan) : Except TrapInfo Done :=
  match pushData ch [0] with
  | .error e => .error e
  | .ok _ => yieldAnswer (if ch.ctl.ypend then ch else requestYield true ch)

/-- YIELD (R106). -/
def execYield (c : Ch) (s : State) : Host.Outcome State Fault Refusal := onChan c (runInstr 2 yieldBody) s

/-- YIELD_STATUS_KNOWN (R106). -/
def execYieldStatusKnown (c : Ch) (s : State) : Host.Outcome State Fault Refusal :=
  onChan c (fun ch =>
    match waitsFor ch with
    | some { kind := .yield, len := n } => retryWait yieldAnswer n ch
    | _ => ch) s

/-! ### RESUME (R108) -/

/-- RESUME with a status. -/
def resumeStatus (ch : Chan) (st : BitVec 2) : Except TrapInfo Done :=
  match pushData { ch with trap := { ch.trap with rstat := st } } [st.setWidth 32] with
  | .error e => .error e
  | .ok ch => .ok (.seq ch)

/-- RESUME ( -- s ): NONE unless STATE is SAVED, NORESUME when the save cannot be resumed, otherwise OK once no op is
executing; the restore sequence then runs. -/
def resumeBody (ch : Chan) : Except TrapInfo Done :=
  if ch.trap.state ≠ 2 then resumeStatus ch 1
  else if bit (ch.trap.save[0]) 28 then resumeStatus ch 2
  else if ch.seq.cur.isSome then
    match pushData ch [0] with
    | .error e => .error e
    | .ok _ => .ok (.wait ch .resume)
  else
    match resumeStatus ch 0 with
    | .ok (.seq ch) => .ok (.seq (startRestore ch))
    | r => r

/-- RESUME (R108). -/
def execResume (c : Ch) (s : State) : Host.Outcome State Fault Refusal := onChan c (runInstr 2 resumeBody) s

/-- RESUME_STALL_END (R108). -/
def execResumeStallEnd (c : Ch) (s : State) : Host.Outcome State Fault Refusal :=
  onChan c (fun ch =>
    match waitsFor ch with
    | some { kind := .resume, len := n } => retryWait resumeBody n ch
    | _ => ch) s

/-! ### EI, DI and WFI (R223, R224) -/

/-- EI (R223). -/
def execEi (c : Ch) (s : State) : Host.Outcome State Fault Refusal :=
  ctl c 2 (fun ch => .ok { ch with ctl := { ch.ctl with ie := true } }) s

/-- DI (R223). -/
def execDi (c : Ch) (s : State) : Host.Outcome State Fault Refusal :=
  ctl c 2 (fun ch => .ok { ch with ctl := { ch.ctl with ie := false } }) s

/-- WFI (R224): an event already pending ends the wait at once. -/
def execWfi (c : Ch) (s : State) : Host.Outcome State Fault Refusal :=
  onChan c (runInstr 2 fun ch => if wfiEvent ch then .ok (.seq ch) else .ok (.wait ch .wfi)) s

/-- WFI_WAKE: an event ends the wait, and IDLE with it (R224, R416). -/
def execWfiWake (c : Ch) (s : State) : Host.Outcome State Fault Refusal :=
  onChan c (fun ch => if memoriesClocked ch && wfiEvent ch then finishWfi (if inWfi ch then wakeIdle ch else ch) else ch) s

end Sys2Proof.Machine
end

