-- ==== Sys2Proof/Machine/CtlVec.lean ====
section
/-! DEFINITION. The long-vector instructions (R188, R226 to R230). -/

namespace Sys2Proof.Machine

/-- An empty entry, for a stack position that is not there. -/
def noVec : VecVal := Vector.replicate 256 0

/-- SETVL ( n -- vl ): VL := min(n, 256), VFF cleared (R188). -/
def execSetvl (c : Ch) (s : State) : Host.Outcome State Fault Refusal :=
  ctl c 2 (stackOp 1 fun xs ch =>
    let n := min (top xs).toNat 256
    .ok ([BitVec.ofNat 32 n], { ch with ctl := { ch.ctl with vl := n, vff := false } })) s

/-- An entry loaded from DMEM: elements 0 to `n` − 1, the rest 0 (R188, R229). -/
def loadVec (ch : Chan) (addr n : Nat) : VecVal := vecOf n (elemRead ch addr)

/-- The first uncorrectable word of an element, for the error report. -/
def elemBadWord (ch : Chan) (a : Nat) : Option Nat :=
  ((elemWords (a % 2 ^ 32)).find? (markUe ch.mem.dmarks)).map (4 * ·)

/-- The DACCESS trap of the lowest faulting element (R229). TRAP_ADDR is the address of the element also for an
uncorrectable word of it, for which R240 says the word's. (DEDUCED, log 127) -/
def elemTrap (ch : Chan) (addr k cause : Nat) : TrapInfo :=
  { vec := 7, cause := cause, addr := BitVec.ofNat 32 (addr + 4 * k)
    ecc := if cause = 4 then elemBadWord ch (addr + 4 * k) else none }

/-- VLD (R229): all elements are checked, then loaded and pushed, and An advances by 4 × VL under [An]+. -/
def vld (am : Byte) (d : Half) (ch : Chan) : Except TrapInfo Chan :=
  match decodeAm am d true with
  | .error e => .error e
  | .ok m =>
    stackOp (amPops m) (fun xs ch =>
      let addr := (amAddr ch.ctl m 0 xs).toNat
      match firstFault ch addr ch.ctl.vl true with
      | some (k, cause) => .error (elemTrap ch addr k cause)
      | none =>
        let v := loadVec ch addr ch.ctl.vl
        let ch := elemChecks ch addr ch.ctl.vl
        match trapIn ch (pushVec { ch with ctl := amUpdate ch.ctl m (4 * ch.ctl.vl) } [v]) with
        | .error e => .error e
        | .ok ch => .ok ([], ch)) ch

/-- VLD. -/
def execVld (c : Ch) (am : Byte) (d : Half) (s : State) : Host.Outcome State Fault Refusal :=
  ctl c (amLen 2 am) (vld am d) s

/-- The elements before the first faulting one, with VL and VFF as R230 sets them. With a full vector stack VOVF leaves no
effect, but for the errors that the reads met, which are reported whether or not a trap is taken (R188, R230, R240).
(DEDUCED, log 126) -/
def shortLoad (ch : Chan) (m : AMode) (addr k cause : Nat) : Except TrapInfo Chan :=
  let v := loadVec ch addr k
  let ch := elemChecks ch addr k
  let ch := match (if cause = 4 then elemBadWord ch (addr + 4 * k) else none) with
    | some a => reportDmemUe ch a
    | none => ch
  trapIn ch (pushVec { ch with ctl := { amUpdate ch.ctl m (4 * k) with vl := k, vff := true } } [v])

/-- VLDFF (R230): a fault in element 0 raises VFAULT, a later one shortens VL and sets VFF. -/
def execVldff (c : Ch) (am : Byte) (d : Half) (s : State) : Host.Outcome State Fault Refusal :=
  ctl c (amLen 2 am) (fun ch =>
    match decodeAm am d true with
    | .error e => .error e
    | .ok m =>
      stackOp (amPops m) (fun xs ch =>
        let addr := (amAddr ch.ctl m 0 xs).toNat
        match firstFault ch addr ch.ctl.vl true with
        | none =>
          let v := loadVec ch addr ch.ctl.vl
          let ch := elemChecks ch addr ch.ctl.vl
          match trapIn ch (pushVec { ch with ctl := amUpdate ch.ctl m (4 * ch.ctl.vl) } [v]) with
          | .error e => .error e
          | .ok ch => .ok ([], ch)
        | some (0, cause) =>
          .error { vec := 5, cause := 1, addr := BitVec.ofNat 32 addr, ecc := (elemTrap ch addr 0 cause).ecc }
        | some (k, cause) =>
          match shortLoad ch m addr k cause with
          | .error e => .error e
          | .ok ch => .ok ([], ch)) ch) s

/-- VST (R229): all elements are checked before any byte is written; the entry is popped. -/
def execVst (c : Ch) (am : Byte) (d : Half) (s : State) : Host.Outcome State Fault Refusal :=
  ctl c (amLen 2 am) (fun ch =>
    match decodeAm am d true with
    | .error e => .error e
    | .ok m =>
      stackOp (amPops m) (fun xs ch =>
        match popVec ch 1 with
        | .error e => .error e
        | .ok (vs, ch) =>
          let addr := (amAddr ch.ctl m 0 xs).toNat
          match firstFault ch addr ch.ctl.vl false with
          | some (k, cause) => .error (elemTrap ch addr k cause)
          | none =>
            let ch := elemStore ch addr ch.ctl.vl (vecAt (vs.getD 0 noVec))
            .ok ([], { ch with ctl := amUpdate ch.ctl m (4 * ch.ctl.vl) })) ch) s

/-- VSPLAT ( x -- ) V( -- v ). -/
def execVsplat (c : Ch) (s : State) : Host.Outcome State Fault Refusal :=
  ctl c 2 (stackOp 1 fun xs ch =>
    match pushVec ch [vecOf ch.ctl.vl fun _ => top xs] with
    | .error e => .error e
    | .ok ch => .ok ([], ch)) s

/-- VEXTR ( i -- x ) V( v -- v ): element i, or 0 when i ≥ 256. After VL was lowered an element from VL upward is what the
entry holds there. (DEDUCED, log 127) -/
def execVextr (c : Ch) (s : State) : Host.Outcome State Fault Refusal :=
  ctl c 2 (stackOp 1 fun xs ch =>
    match popVec ch 1 with
    | .error e => .error e
    | .ok (vs, _) => .ok ([vecAt (vs.getD 0 noVec) (top xs).toNat], ch)) s

/-- A copy of elements 0 to VL − 1 of an entry, zeros above (R227). -/
def vecCopy (ch : Chan) (v : VecVal) : VecVal := vecOf ch.ctl.vl (vecAt v)

/-- VDUP V( v -- v v ). -/
def execVdup (c : Ch) (s : State) : Host.Outcome State Fault Refusal :=
  ctl c 2 (vecOp 1 fun vs ch => .ok ([vs.getD 0 noVec, vecCopy ch (vs.getD 0 noVec)], ch)) s

/-- VDROP V( v -- ). -/
def execVdrop (c : Ch) (s : State) : Host.Outcome State Fault Refusal :=
  ctl c 2 (vecOp 1 fun _ ch => .ok ([], ch)) s

/-- VSWAP V( v w -- w v ). -/
def execVswap (c : Ch) (s : State) : Host.Outcome State Fault Refusal :=
  ctl c 2 (vecOp 2 fun vs ch => .ok (vs, ch)) s

/-- VOVER V( v w -- v w v ). -/
def execVover (c : Ch) (s : State) : Host.Outcome State Fault Refusal :=
  ctl c 2 (vecOp 2 fun vs ch => .ok (vs.reverse ++ [vecCopy ch (vs.getD 1 noVec)], ch)) s

/-- An element-wise floating instruction under the FPCTL in force (R227). -/
def vecFpu (k : Nat) (g : BitVec 10 → List Nat → Nat × FFlags) (ch : Chan) : Except TrapInfo Chan :=
  vecFp k (fun xs => g ch.ctl.fpctl (xs.map BitVec.toNat)) ch

/-- VFADD. -/
def execVfadd (c : Ch) (s : State) : Host.Outcome State Fault Refusal := ctl c 2 (vecFpu 2 fpAdd) s

/-- VFSUB. -/
def execVfsub (c : Ch) (s : State) : Host.Outcome State Fault Refusal := ctl c 2 (vecFpu 2 fpSub) s

/-- VFMUL. -/
def execVfmul (c : Ch) (s : State) : Host.Outcome State Fault Refusal := ctl c 2 (vecFpu 2 fpMul) s

/-- VFMA V( a b c -- a × b + c ). -/
def execVfma (c : Ch) (s : State) : Host.Outcome State Fault Refusal := ctl c 2 (vecFpu 3 fpMa) s

/-- VFMIN. -/
def execVfmin (c : Ch) (s : State) : Host.Outcome State Fault Refusal := ctl c 2 (vecFpu 2 fpMin) s

/-- VFMAX. -/
def execVfmax (c : Ch) (s : State) : Host.Outcome State Fault Refusal := ctl c 2 (vecFpu 2 fpMax) s

/-- VFNEG. -/
def execVfneg (c : Ch) (s : State) : Host.Outcome State Fault Refusal := ctl c 2 (vecFpu 1 fpNeg) s

/-- VFABS. -/
def execVfabs (c : Ch) (s : State) : Host.Outcome State Fault Refusal := ctl c 2 (vecFpu 1 fpAbs) s

/-- The sum of elements in element order, rounding each addition (R228). -/
def sumFrom (fp : BitVec 10) : List Nat → Nat × FFlags → Nat × FFlags
  | [], acc => acc
  | x :: t, acc =>
    let r := fpAdd fp [acc.1, x]
    sumFrom fp t (r.1, acc.2 ||| r.2)

/-- VFREDSUM ( -- x ) V( v -- ): e₀ unchanged with VL = 1, +0 with VL = 0 (R228). -/
def execVfredsum (c : Ch) (s : State) : Host.Outcome State Fault Refusal :=
  ctl c 2 (stackOp 0 fun _ ch =>
    match popVec ch 1 with
    | .error e => .error e
    | .ok (vs, ch) =>
      let xs := (List.range ch.ctl.vl).map fun i => (vecAt (vs.getD 0 noVec) i).toNat
      let r := sumFrom ch.ctl.fpctl (xs.drop 1) (xs.headD 0, 0)
      .ok ([BitVec.ofNat 32 r.1], setFp ch r.2)) s

/-- VCVT.S.W: element-wise int32 to binary32. -/
def execVcvtSW (c : Ch) (s : State) : Host.Outcome State Fault Refusal := ctl c 2 (vecFpu 1 fpFromW) s

/-- VCVT.W.S: element-wise binary32 to int32. -/
def execVcvtWS (c : Ch) (s : State) : Host.Outcome State Fault Refusal := ctl c 2 (vecFpu 1 fpToW) s

/-- VADD. -/
def execVadd (c : Ch) (s : State) : Host.Outcome State Fault Refusal := ctl c 2 (vecBin fun a b => a + b) s

/-- VSUB. -/
def execVsub (c : Ch) (s : State) : Host.Outcome State Fault Refusal := ctl c 2 (vecBin fun a b => a - b) s

/-- VMUL keeps the low 32 bits of each product. -/
def execVmul (c : Ch) (s : State) : Host.Outcome State Fault Refusal := ctl c 2 (vecBin fun a b => a * b) s

/-- VAND. -/
def execVand (c : Ch) (s : State) : Host.Outcome State Fault Refusal := ctl c 2 (vecBin fun a b => a &&& b) s

/-- VOR. -/
def execVor (c : Ch) (s : State) : Host.Outcome State Fault Refusal := ctl c 2 (vecBin fun a b => a ||| b) s

/-- VXOR. -/
def execVxor (c : Ch) (s : State) : Host.Outcome State Fault Refusal := ctl c 2 (vecBin fun a b => a ^^^ b) s

/-- VREDADD ( -- x ) V( v -- ): the sum of the elements modulo 2^32 (R228). -/
def execVredadd (c : Ch) (s : State) : Host.Outcome State Fault Refusal :=
  ctl c 2 (stackOp 0 fun _ ch =>
    match popVec ch 1 with
    | .error e => .error e
    | .ok (vs, ch) =>
      .ok ([(List.range ch.ctl.vl).foldl (fun acc i => acc + vecAt (vs.getD 0 noVec) i) 0], ch)) s

end Sys2Proof.Machine
end

