-- ==== Sys2Proof/Machine/HubOps.lean ====
section
/-! DEFINITION. The hub's shared operations: the error log, AER, record areas, the fatal state and channel reports
(R17, R23, R24, R354, R366, R390, R396 to R401). -/

namespace Sys2Proof.Machine

/-! ### Channel masks -/

/-- A 16-bit mask with the bit of channel `c` set or cleared. -/
def maskPut (x : BitVec 16) (c : Ch) (on : Bool) : BitVec 16 :=
  if on then x ||| BitVec.ofNat 16 (2 ^ c.val) else x &&& ~~~(BitVec.ofNat 16 (2 ^ c.val))

/-- The bit of channel `c`. -/
def maskAt (x : BitVec 16) (c : Ch) : Bool := x.getLsbD c.val

/-- Change the hub. -/
def State.onHubOne (s : State) (f : Hub → Hub) : State := { s with hub := f s.hub }

/-! ### Life cycle (R376) -/

/-- A step of the thermometer is programmed: the majority of its fuses read by three, at least three of the five.
(DEDUCED, log 76) -/
def lcStep (f : BitVec 5) : Bool := decide (popNat 3 f.toNat ≥ 3)

/-- The life-cycle state: 0 BLANK, 1 PROVISIONED, 2 DEPLOYED, 3 RETURNED, 4 RETIRED. (DEDUCED, log 76) -/
def lcState (f : Fuses) : Nat :=
  if lcStep f.lc[3] then 4 else if lcStep f.lc[2] then 3 else if lcStep f.lc[1] then 2 else if lcStep f.lc[0] then 1 else 0

/-- The fuse floor: the value of the highest step programmed, or 0 (14, Anti-rollback). -/
def floorOf (f : Fuses) : Half := f.floor.headD 0

/-! ### Rails (R412) -/

/-- The rails that the 12 V aux supply feeds. -/
def auxRails : List Rail := [.hubCore, .hubIo, .flash, .link]

/-- The rails that the 48 V supply feeds, in the order in which start step 4 enables them; those of one number rise
together. -/
def enableOrder : List (List Rail) := [[.hbmVpp], [.hbmVdd], [.vret], [.vsram], [.varr, .vkeg], [.hbmVddq]]

/-- The main rails are on: every one is within 5 % of nominal. -/
def Supply.rails (p : Supply) : Bool := enableOrder.flatten.all fun r => decide (r ∈ p.on)

/-- Rails rise, which the ones before them in the order must have done first. -/
def raiseRails (done : List (List Rail)) (rs : List Rail) (on : List Rail) : List Rail :=
  if done.flatten.all fun r => decide (r ∈ on) then on ++ rs.filter fun r => decide (r ∉ on) else on

/-- The main rails are enabled in order. -/
def enableRails (on : List Rail) : List Rail :=
  (List.range 6).foldl (fun on k => raiseRails (enableOrder.take k) (enableOrder.getD k []) on) on

/-- The main rails are disabled in the reverse order (R414). -/
def disableRails (on : List Rail) : List Rail :=
  enableOrder.reverse.foldl (fun on rs => on.filter fun r => decide (r ∉ rs)) on

/-! ### The error log (R401) -/

/-- An entry of the log. -/
def logEntryOf (seq : Word) (source : BitVec 5) (cls : BitVec 2) (code unit : Byte) (dropped : Nat) (detail : Word)
    (count : BitVec 64) : BitVec 128 :=
  (count.extractLsb' 10 32 : Word) ++ detail ++ (BitVec.ofNat 8 dropped ++ unit ++ code ++ 0#1 ++ cls ++ source : Word)
    ++ seq

/-- Write the next entry of the ring, which sends vector 0 of PF0 (R351). -/
def logWrite (h : Hub) (source : BitVec 5) (cls : BitVec 2) (code unit : Byte) (dropped : Nat) (detail : Word) : Hub :=
  { h with
    log := { h.log with
      ring := h.log.ring.setIfInBounds (h.log.head.toNat % 256)
        (logEntryOf h.log.head source cls code unit dropped detail h.timebase.count)
      head := h.log.head + 1 }
    pf0 := sendVec h.pf0 0 }

/-- An event of R390: class EVENT, and a PLDM event when a receiver is configured. (DESIGN CHOICE, log 71) -/
def logEvent (h : Hub) (code unit : Byte) (detail : Word) : Hub :=
  let h := logWrite h (Config.eventSource code) 3 code unit 0 detail
  if h.services.receiver then
    { h with services := { h.services with
      waiting := h.services.waiting ++ [.bytes (code :: unit :: natBytes 4 detail.toNat)] } }
  else h

/-- The class bits of a log entry. -/
def classBits : ErrClass → BitVec 2
  | .ce => 0
  | .ucc => 1
  | .fatal => 2
  | .event => 3

/-! ### AER (R354) -/

/-- A Corrected Internal Error: ERR_COR when the bit goes from 0 to 1. -/
def aerCor (f : Fn) : Fn :=
  if f.aer.corInternal then f
  else
    let f := { f with aer := { f.aer with corInternal := true } }
    if bit f.aer.maskCor 6 || !bit f.errEn 0 then f else fnSend f (.aer .cor)

/-- Errors that the link has corrected: their standard bits, and ERR_COR for one that is not masked (R354). -/
def aerLinkCor (bits : BitVec 6) (f : Fn) : Fn :=
  let f := { f with aer := { f.aer with linkCor := f.aer.linkCor ||| bits } }
  if (bits &&& ~~~(f.aer.maskCor.setWidth 6)) ≠ 0 ∧ bit f.errEn 0 = true then fnSend f (.aer .cor) else f

/-- Set an uncorrectable status bit: 0 internal, 1 poisoned, 2 unsupported request, 3 completion timeout, 4 to 6 the link. -/
def aerSet (a : Aer) (k : Nat) : Aer :=
  match k with
  | 0 => { a with uncInternal := true }
  | 1 => { a with poisoned := true }
  | 2 => { a with unsupported := true }
  | 3 => { a with timeout := true }
  | k => { a with link := a.link ||| BitVec.ofNat 3 (2 ^ (k - 4)) }

/-- An uncorrectable error: its bit, and a message per severity when the mask and the Device Control settings allow. -/
def aerUnc (f : Fn) (k : Nat) : Fn :=
  let f := { f with aer := aerSet f.aer k }
  if bit f.aer.maskUnc k then f
  else if bit f.aer.severity k then (if bit f.errEn 2 then fnSend f (.aer .fatal) else f)
  else if bit f.errEn 1 then fnSend f (.aer .nonfatal) else f

/-- The AER record of a module fatal in one function. -/
def aerFatal (sends : Bool) (f : Fn) : Fn :=
  let f := { f with aer := { f.aer with uncInternal := true } }
  if sends && !bit f.aer.maskUnc 0 && bit f.errEn 2 then fnSend f (.aer .fatal) else f

/-! ### Readiness (R351, R353) -/

/-- MOD_STAT.CH_READY changes, which sends vector 1 of PF0. -/
def setReady (h : Hub) (x : BitVec 16) : Hub :=
  if h.ready = x then h else { h with ready := x, pf0 := sendVec h.pf0 1 }

/-- A channel becomes ready. -/
def chanReady (s : State) (c : Ch) : State :=
  (s.onOne c fun ch => { ch with fn := { ch.fn with retry := false } }).onHubOne
    fun h => setReady h (maskPut h.ready c true)

/-! ### Module fatal (R17, R354, R400) -/

/-- The Maltster declares the module fatal: every channel stops, all 17 functions record an Uncorrectable Internal
Error, and PF0 sends one ERR_FATAL. -/
def moduleFatal (s : State) : State :=
  if s.hub.supply.fatal then s
  else
    let s := s.onAll allChans fun ch =>
      let ch := setCState ch .fatal
      { ch with fn := aerFatal false ch.fn }
    s.onHubOne fun h =>
      saveRecord { h with supply := { h.supply with fatal := true }, pf0 := aerFatal true h.pf0 }

/-- A source of the hub reports (R24); `k` is the source number less 16. -/
def hubReport (h : Hub) (k : Fin 8) (cls : ErrClass) (code unit : Byte) (detail : Word) : Hub :=
  { h with log := { h.log with
    sources := h.log.sources.set k
      (sourcePut h.log.sources[k] { cls := cls, code := code, unit := unit, detail := detail, fence := false }) } }

/-- A source of the hub reports a fatal error, and the module is declared fatal. -/
def hubFatal (s : State) (k : Fin 8) (code : Byte) : State :=
  moduleFatal (s.onHubOne fun h => hubReport h k .fatal code 0 0)

/-- PF0 is present and answers: the Maltster has started, and PERST_N is released (R353, R356, R362). -/
def portUp (h : Hub) : Bool := managed h && !h.supply.perst

end Sys2Proof.Machine
end

