-- ==== Sys2Proof/Machine/Restart.lean ====
section
/-! DEFINITION. Channel restart (R281, R322, R357, R363, R397, R405, R421) and the configuration record's effect on a
channel (R312, R373, R402). -/

namespace Sys2Proof.Machine

/-! ### The configuration record in a channel -/

/-- The service mode of the pair of channel `c` (R373, R402). -/
def cfgMode (r : ConfigRec) (c : Ch) : BitVec 2 := BitVec.ofNat 2 (fld r.modes (2 * (c.val / 2)) 2)

/-- The place of a channel in the torus (R11, R312). -/
def cfgOwn (r : ConfigRec) (c : Ch) : Half := globalAddr r.addr c.val

/-- The global channel address that the channel answers to: in PAIRED mode, that of channel 2k (R404). -/
def cfgAddr (r : ConfigRec) (c : Ch) : Half :=
  globalAddr r.addr (if cfgMode r c = 2 then c.val / 2 * 2 else c.val)

/-- The configuration byte of a port (R373). -/
def cfgPort (r : ConfigRec) (c : Ch) (p : Nat) : Byte := r.ports.toList.getD (6 * c.val + p) 1

/-- A port's KEG_PCFG returns to the record; a port that the record enables is no longer DISABLED. -/
def portToRecord (b : Byte) (q : Port) : Port :=
  { q with
    enable := bit b 0, maxRate := b.extractLsb' 1 2, maxLanes := b.extractLsb' 3 2, fecOffOk := false, edgeAny := false
    state := if bit b 0 then (if q.state = .disabled then .down else q.state) else .disabled }

/-- The error counts and W1C bits of a port at channel restart. -/
def portRestart (q : Port) : Port :=
  { q with pchg := false, renegd := false, downev := false, replays := 0, fecUncorr := 0 }

/-- A link at channel restart: the edge streams end in both directions; the router goes on (R322, R332).
(DEDUCED, log 61) -/
def linkRestart (l : Link) : Link :=
  { dropEdges l with ecred := 0, rxEdge := [], rxSlots := [] }

/-- The keg block at channel restart: its registers return to their reset values, and its ports stay as they are, in
relay. (DEDUCED, log 61) -/
def restartKeg (r : ConfigRec) (c : Ch) (k : Keg) : Keg :=
  { k with
    ports := Vector.ofFn fun p : Fin 6 => portToRecord (cfgPort r c p.val) (portRestart k.ports[p])
    links := k.links.map linkRestart
    xfail := false, discard := false, discards := 0, downLimit := 10000 }

/-- The keg block when its island is powered: a new session value, and ports that have negotiated nothing (R312, R316).
(DESIGN CHOICE, log 60) -/
def powerKeg (r : ConfigRec) (c : Ch) (session : Word) : Keg :=
  { Keg.reset c.val with
    ports := Vector.ofFn fun p : Fin 6 => portToRecord (cfgPort r c p.val) Port.reset
    own := cfgOwn r c, addr := cfgAddr r c
    nxm1 := BitVec.ofNat 4 (fld r.dims 0 4), nym1 := BitVec.ofNat 4 (fld r.dims 4 4), nzm1 := BitVec.ofNat 4 (fld r.dims 8 4)
    session := session }

/-! ### Restart -/

/-- A channel at restart: the state of R31, R171, R231, R235 and R281, with its repair records, what its function has
sent, its waiting reports, its mode and the count of free values kept (R357, R421). `keepFn` says that the
configuration state of its function is kept. Ejected packets that nothing has served are still refused (R281, R333). -/
def restartChan (h : Hub) (c : Ch) (keepFn : Bool) (ch : Chan) : Chan :=
  let new := Chan.reset c.val
  { new with
    cstate := ch.cstate
    mem := { new.mem with usedD := ch.mem.usedD, usedI := ch.mem.usedI, usedP := ch.mem.usedP, outD := ch.mem.outD, outI := ch.mem.outI }
    arr := { new.arr with tunMap := ch.arr.tunMap, spareBad := ch.arr.spareBad, spareCols := ch.arr.spareCols }
    fmt := Fmt.reset ch.keg.addr
    rack := { new.rack with
      inq := ch.rack.inq, images := ch.rack.images, responses := ch.rack.responses, mgmt := ch.rack.mgmt }
    hbm := { new.hbm with record := ch.hbm.record }
    keg := restartKeg h.boot.config c ch.keg
    fn := if keepFn then ch.fn else { Fn.reset with out := ch.fn.out }
    err := { new.err with
      src := ch.err.src, mode := ch.err.mode, pair := if keepFn then ch.err.pair else engineOf Fn.reset }
    free := ch.free }

/-- The channel stays fenced across a restart (R397). -/
def isHeld (h : Hub) (c : Ch) : Bool := maskAt (h.held ||| h.heldStart) c

/-- Ports that ran at DOZE's limits negotiate at their configured ones (R334, R418). -/
def leaveDozePorts (isOpen wasDoze : Bool) (ch : Chan) : Chan := if wasDoze then leaveLow isOpen ch else ch

/-- One channel restarts: it is in start until steps 5 to 8 have been repeated, or it stays fenced. -/
def restartOne (keepFn : Bool) (s : State) (c : Ch) : State :=
  let h := s.hub
  let s := s.onOne c fun ch =>
    let wasDoze := decide (ch.cstate = .doze)
    let ch := restartChan h c keepFn ch
    leaveDozePorts (bypassOpen h) wasDoze (setCState ch (if isHeld h c then .fenced else .starting))
  s.onHubOne fun h =>
    let h := { h with loaded := maskPut h.loaded c false, milled := maskPut h.milled c false }
    if isHeld h c then h else setReady h (maskPut h.ready c false)

/-- The channels that restart together: both members of a pair in PAIRED mode (R405). -/
def restartSet (s : State) (c : Ch) : List Ch := if (s.chan c).err.mode = 2 then [c, partnerOf c] else [c]

/-- A member of a pair whose partner stays fenced runs alone (R405). -/
def soloIfHeld (s : State) (c : Ch) : State :=
  if (s.chan c).err.mode = 2 ∧ isHeld s.hub (partnerOf c) = true then
    s.onOne c fun ch => { ch with err := { ch.err with solo := true, partnerFenced := true } }
  else s

/-- Channels can restart: the main rails are on, PERST_N is released, and the module is not fatal. -/
def restartable (h : Hub) : Bool := h.supply.aux && h.supply.rails && !h.supply.perst && !h.supply.fatal

/-- A channel and those that restart with it. -/
def restartChannel (keepFn : Bool) (c : Ch) (s : State) : State :=
  if restartable s.hub then
    let cs := restartSet s c
    cs.foldl soloIfHeld (cs.foldl (restartOne keepFn) s)
  else s

/-- CHANNEL_RESTART: the reset of a restart that the Maltster performs, which keeps the function's configuration state
(R350, R421). The steps 5 to 8 that R363 repeats are commands of their own. -/
def execChannelRestart (c : Ch) (s : State) : Host.Outcome State Fault Refusal := .next (restartChannel true c s)

/-! ### Channels held in reset -/

/-- A channel held in reset by the hub (R357, R414): the state of a restart, which ends a DOZE (R334, R418). A HELD fence is
applied again when the channel would leave reset (R397). -/
def holdOne (keepFn : Bool) (s : State) (c : Ch) : State :=
  let h := s.hub
  let s := s.onOne c fun ch =>
    leaveDozePorts (bypassOpen h) (decide (ch.cstate = .doze)) (setCState (restartChan h c keepFn ch) .starting)
  s.onHubOne fun h =>
    setReady { h with loaded := maskPut h.loaded c false, milled := maskPut h.milled c false } (maskPut h.ready c false)

/-- Every channel is held in reset. -/
def holdAll (keepFn : Bool) (s : State) : State := allChans.foldl (holdOne keepFn) s

/-- A channel without main rails: beyond what a restart resets, the packets that its keg block holds, its waiting reports
and the contents of its HBM are lost (R414, R421). -/
def losePower (r : ConfigRec) (c : Ch) (ch : Chan) : Chan :=
  { ch with
    rack := Rack.reset
    hbm := { Hbm.reset with record := ch.hbm.record }
    keg := powerKeg r c 0
    err := { ch.err with src := Source.reset, copies := [] } }

/-- Every channel is in reset and without power. -/
def darkAll (keepFn : Bool) (s : State) : State :=
  let s := holdAll keepFn s
  allChans.foldl (fun s c => s.onOne c (losePower s.hub.boot.config c)) s

end Sys2Proof.Machine
end

