-- ==== Sys2Proof/Machine/KilnCheck.lean ====
section
/-! DEFINITION. The composed microstore and Kiln's checks of it (R37, R42, R82, R85, R91 to R93, R444, R445, R447). -/

namespace Sys2Proof.Machine

/-! ### Composition (R91) -/

/-- The composed microstore: the words and routine table entries supplied, the newest part first, and the exported
addresses. -/
structure Composed where
  words   : List (Nat × Quad)
  entries : List (Nat × Quad)
  exports : List Nat
  deriving DecidableEq, Repr

/-- The addresses that every base revision exports (R445). -/
def fixedExports : List Nat := [0x2FE0, 0x2FE1, 0x2FE2, 0x2FE3, 0x2FE4]

/-- The base region and its routines. -/
def inBase (a : Nat) : Bool := decide (a < 0x3000)
def baseRoutine (r : Nat) : Bool := decide (1 ≤ r ∧ r ≤ 767)

/-- The owner region and its routines. -/
def inOwner (a : Nat) : Bool := decide (0x3000 ≤ a ∧ a < 0x4000)
def ownerRoutine (r : Nat) : Bool := decide (768 ≤ r ∧ r ≤ 1023)

/-- The base image's parts. Its export list holds the five addresses of R445. -/
def fromBase (m : MicroPart) : Composed where
  words := m.words.filter fun p => inBase p.1
  entries := m.entries.filter fun p => baseRoutine p.1
  exports := fixedExports ++ m.exports

/-- A patch replaces named words and entries of the base region. -/
def withPatch (k : Composed) (m : MicroPart) : Composed :=
  { k with
    words := (m.words.filter fun p => inBase p.1) ++ k.words
    entries := (m.entries.filter fun p => baseRoutine p.1) ++ k.entries }

/-- The owner routine set replaces the owner region and its routines. -/
def withOwner (k : Composed) (m : MicroPart) : Composed :=
  { k with
    words := (m.words.filter fun p => inOwner p.1) ++ k.words
    entries := (m.entries.filter fun p => ownerRoutine p.1) ++ k.entries }

/-- The word at an address of the composed microstore (R447). -/
def composedWord (k : Composed) (a : Nat) : Quad := (listedQuad k.words a).getD haltWord

/-! ### Checks of one word -/

/-- 1: a reserved code. -/
def reservedCode (w : Quad) : Bool :=
  decide (wSeq w ≥ 14 ∨ wCond w ≥ 26 ∨ wBsrc w = 15 ∨ wWen w = 7 ∨ wLatch w = 7 ∨ wXshift w ≥ 9 ∨ wLaut w ≥ 6)

/-- 2: the ECC of a word does not match (R444). -/
def badWordEcc (w : Quad) : Bool := decide (hamEcc (w.toNat / 256) ≠ fld w 0 8)

/-- 2: the ECC of a routine table entry does not match. -/
def badEntryEcc (e : Quad) : Bool := decide (hamEcc (fld e 0 120) ≠ fld e 120 8)

/-- SEQ takes UADDR as a micro-address: JMP, JC, JNC, CALL, LOOP, WAITJ (R74). -/
def hasTarget (w : Quad) : Bool := decide (wSeq w ∈ [1, 2, 3, 4, 6, 9])

/-- LDLOOP with LSRC IMM, which uses UADDR[11:0]. -/
def loadsImm (w : Quad) : Bool := decide (wSeq w = 7 ∧ wLsrc w = 0)

/-- SEQ uses COND. -/
def usesCond (w : Quad) : Bool := decide (wSeq w ∈ [2, 3, 8, 9, 11, 12])

/-- The word breaks R82. -/
def badUnusedField (w : Quad) : Bool :=
  let loop := decide (wSeq w = 6 ∨ wSeq w = 7)
  let usesU := hasTarget w || loadsImm w
  (!usesCond w && decide (wCond w ≠ 0))
    || (!usesU && decide (wLaut w ≠ 5) && decide (wUaddr w ≠ 0))
    || (loadsImm w && decide (wUaddr w ≥ 4096))
    || (decide (wSeq w ≠ 7) && decide (wLsrc w ≠ 0 ∨ wLsel2 w ≠ 0))
    || (!loop && !wLdec w && decide (wLsel w ≠ 0))
    || (usesU && decide (wLaut w = 5))
    || (loop && wLdec w)

/-- 3: the word breaks R37, R42 or R82. -/
def badFields (w : Quad) : Bool :=
  decide ((wLatch w = 3 ∨ wLatch w = 4) ∧ wXshift w ≠ 0) || bit w 8
    || (!wSys w && decide (wExport w = 5 ∨ wExport w = 6)) || badUnusedField w

/-- The word can fall through to µPC + 1: every code but JMP, RET, END, ENDTRAP and HALT. -/
def fallsThrough (w : Quad) : Bool := decide (wSeq w ∉ [1, 5, 10, 12, 13])

/-- The checks 1 to 6 of one word, by number; the last address of a region is 0x2FFF or 0x3FFF. -/
def wordFails (k : Composed) (n : Nat) (p : Nat × Quad) : Bool :=
  let w := p.2
  match n with
  | 1 => reservedCode w
  | 2 => badWordEcc w
  | 3 => badFields w
  | 4 => decide (p.1 = 0x2FFF ∨ p.1 = 0x3FFF) && fallsThrough w
  | 5 => inBase p.1 && hasTarget w && !inBase (wUaddr w)
  | _ => inOwner p.1 && hasTarget w && inBase (wUaddr w) && !(decide (wSeq w = 4) && decide (wUaddr w ∈ k.exports))

/-! ### Reachability (R91) -/

/-- A point of an execution: a micro-address and the return addresses on the micro-call stack, newest first. -/
abbrev Point := Nat × List Nat

/-- The points that follow. A CALL is followed to its target and, as every code but JMP, RET, END, ENDTRAP and HALT, to the
word after it, which a RET of the called words reaches too. -/
def nextPoints (k : Composed) (p : Point) : List Point :=
  let w := composedWord k p.1
  let jump := if hasTarget w && decide (wSeq w ≠ 4) then [(wUaddr w, p.2)] else []
  let call := if wSeq w = 4 ∧ p.2.length < 8 then [(wUaddr w, (p.1 + 1) :: p.2)] else []
  let ret := if wSeq w = 5 then (match p.2 with | [] => [] | r :: t => [(r, t)]) else []
  let fall := if fallsThrough w && decide (p.1 < 0x3FFF) then [(p.1 + 1, p.2)] else []
  jump ++ call ++ ret ++ fall

/-- Follow points until none is left that has not been seen. -/
def explore (k : Composed) : Nat → List Point → List Point → List Point
  | 0, _, seen => seen
  | _ + 1, [], seen => seen
  | n + 1, p :: todo, seen =>
    if p ∈ seen then explore k n todo seen else explore k n (nextPoints k p ++ todo) (p :: seen)

/-- A bound on the points that can be followed. -/
def exploreFuel : Nat := 2 ^ 160

/-- The points reachable from the ENTRY of a routine. -/
def reachable (k : Composed) (e : Quad) : List Point := explore k exploreFuel [(eEntry e, [])] []

/-- 7: a word with SYS 1 is reachable from a routine with SYS 0. -/
def reachesSystem (k : Composed) (e : Quad) : Bool :=
  !eSys e && (reachable k e).any fun p => wSys (composedWord k p.1)

/-- 8: a depth above 8, which a cycle of calls also comes to, or a RET at depth 0. -/
def badCalls (k : Composed) (e : Quad) : Bool :=
  (reachable k e).any fun p =>
    let w := composedWord k p.1
    decide (wSeq w = 4 ∧ p.2.length ≥ 8) || decide (wSeq w = 5 ∧ p.2 = [])

/-! ### Checks of one entry -/

/-- 9: an ENTRY outside its region, a reserved field that is not 0, or MUL without USES_GFD. -/
def badEntry (p : Nat × Quad) : Bool :=
  let e := p.2
  (eValid e && (inBase (eEntry e) != baseRoutine p.1)) || decide (fld e 17 7 ≠ 0)
    || (List.range 4).any (fun n =>
        decide (fld e (24 + 24 * n + 19) 5 ≠ 0) || (!eUsesGfd e && decide (eMul e n ≠ 0)))

/-- The checks 2 and 7 to 10 of one entry; an entry that is not VALID names no ENTRY for checks 7 and 8.
(DESIGN CHOICE, log 111) -/
def entryFails (k : Composed) (n : Nat) (p : Nat × Quad) : Bool :=
  match n with
  | 2 => badEntryEcc p.2
  | 7 => eValid p.2 && reachesSystem k p.2
  | 8 => eValid p.2 && badCalls k p.2
  | 9 => badEntry p
  | 10 => eValid p.2 && (List.range 4).any fun i => decide (eAdd p.2 i > 4096)
  | _ => false

/-- The entries of a map that no newer part replaces. -/
def inForce (m : List (Nat × Quad)) : List (Nat × Quad) := m.filter fun p => decide (listedQuad m p.1 = some p.2)

/-- The first condition of R91 that the composed words and entries of a region meet, or 0; what a newer part replaces is
not checked. The fill word and absent entries meet none (R447). (DEDUCED, log 81) -/
def kilnCheck (k : Composed) (owner : Bool) : Nat :=
  let ws := (inForce k.words).filter fun p => inOwner p.1 == owner
  let es := (inForce k.entries).filter fun p => ownerRoutine p.1 == owner
  ((List.range 11).find? fun n =>
    decide (n ≠ 0) && ((decide (n ≤ 6) && ws.any (wordFails k n)) || es.any (entryFails k n))).getD 0

/-- The owner region of a rejected owner set: words that do not pass check 1 (R92). DESIGN CHOICE: SEQ 15, every other
field 0. (DESIGN CHOICE, log 80) -/
def rejectedFill : List (Nat × Quad) :=
  (List.range 4096).map fun i => (0x3000 + i, mkWord 15 0 0 0 0 0 0 0 0 0 0 0 0 0 0 0)

/-- The microstore that Kiln loads, its routine table and USTORE_ID. -/
structure Microstore where
  words   : List (Nat × Quad)
  entries : List (Nat × Quad)
  id      : Word
  deriving DecidableEq, Repr

/-- USTORE_ID (03, Registers). -/
def ustoreIdOf (gen : Half) (rev : Byte) (owner rejected : Bool) : Word :=
  gen.setWidth 32 ||| fldAt rev.toNat 16 ||| bitAt owner 24 ||| bitAt rejected 25

/-- The microstore without a rejected owner set (R92). -/
def rejectOwner (k : Composed) (gen : Half) (rev : Byte) : Microstore where
  words := rejectedFill ++ k.words
  entries := k.entries
  id := ustoreIdOf gen rev false true

/-- Compose and check: base image, patches in ascending generation with their generations, and the owner set, or the check
of R369 that its container failed. The answer is the condition that the base image and patches meet, or the microstore
with the check or condition that rejected the owner set, 0 when none did. (DEDUCED, log 81) -/
def compose (base : MicroPart) (patches : List (Half × MicroPart)) (owner : Option (Except Nat MicroPart)) :
    Except Nat (Microstore × Nat) :=
  let k := patches.foldl (fun k p => withPatch k p.2) (fromBase base)
  let gen := (patches.getLast?.map (·.1)).getD 0
  if kilnCheck k false ≠ 0 then .error (kilnCheck k false)
  else
    match owner with
    | none => .ok ({ words := k.words, entries := k.entries, id := ustoreIdOf gen base.rev false false }, 0)
    | some (.error n) => .ok (rejectOwner k gen base.rev, n)
    | some (.ok m) =>
      let ko := withOwner k m
      let bad := kilnCheck ko true
      if bad = 0 then
        .ok ({ words := ko.words, entries := ko.entries, id := ustoreIdOf gen base.rev true false }, 0)
      else .ok (rejectOwner k gen base.rev, bad)

end Sys2Proof.Machine
end

