-- ==== Sys2Proof/Machine/Kiln.lean ====
section
/-! DEFINITION. Kiln: the flash devices, containers, slot choice and the configuration record (R362 to R373, R390). -/

namespace Sys2Proof.Machine

/-! ### Reading a flash device (R365) -/

/-- Bytes of a device. (DESIGN CHOICE, log 11) -/
def flashBytes (f : Flash) (off n : Nat) : List Byte := memBytes f.bytes off n

/-- A little-endian cell of a device. -/
def flashCell (f : Flash) (off : Nat) : Word := memWord f.bytes off

/-- The device of a slot: A is `false`. -/
def flashOf (h : Hub) (dev : Bool) : Flash := if dev then h.flash[1] else h.flash[0]

/-- Change a device. -/
def setFlash (h : Hub) (dev : Bool) (f : Flash → Flash) : Hub :=
  { h with flash := if dev then h.flash.set 1 (f h.flash[1]) else h.flash.set 0 (f h.flash[0]) }

/-- The first read mode that a device declares, in Kiln's order (R365). -/
def flashMode (t : Sfdp) : ReadMode :=
  ([ReadMode.m144, .m114, .m122, .m112].find? fun m => decide (m ∈ t.modes)).getD .m111

/-- The highest of 133, 100, 66 and 50 MHz that the tables declare for a mode, or 50 MHz (R365). -/
def flashMhz (t : Sfdp) (m : ReadMode) : Half :=
  ([133, 100, 66].find? fun f => decide ((m, f) ∈ t.mhz)).getD 50

/-- How Kiln reads a device, by its SFDP tables (R364, R365). -/
def flashRead (sfdp : Option Sfdp) : FlashRead :=
  match sfdp with
  | none => { mode := .m111, addr := .read13, mhz := 25, quad := none }
  | some t =>
    let m := flashMode t
    { mode := m, addr := if t.fourByte then .instructions else .entered, mhz := flashMhz t m
      quad := if m = .m144 ∨ m = .m114 then some t.quad else none }

/-! ### Writing a flash device (R364) -/

/-- The erase that a device declares: of 4 KiB before that of 64 KiB. -/
def eraseUnit (sfdp : Option Sfdp) : Option Nat :=
  match sfdp with
  | some t => if t.erase4 then some 0x1000 else if t.erase64 then some 0x10000 else none
  | none => none

/-- An erase leaves every bit of a block 1. -/
def eraseBlock (n k : Nat) (m : List (Nat × Byte)) : List (Nat × Byte) := memSetBytes m (n * k) (List.replicate n 0xFF)

/-- Programming bytes can only clear bits. -/
def programBytes (m : List (Nat × Byte)) (a : Nat) : List Byte → List (Nat × Byte)
  | [] => m
  | b :: t => programBytes (memSetByte m a (memByte m a &&& b)) (a + 1) t

/-- A block is erased and programmed with what it is to hold: `data` from address `a`, and what it held beside. -/
def rewriteBlock (n a : Nat) (data : List Byte) (m : List (Nat × Byte)) (k : Nat) : List (Nat × Byte) :=
  programBytes (eraseBlock n k m) (n * k) (memBytes (memSetBytes m a data) (n * k) n)

/-- Bytes are written to a device: each block that they touch is erased and programmed again, and a device that declares no
erase is only programmed. (DESIGN CHOICE, log 130) -/
def flashPut (sfdp : Option Sfdp) (m : List (Nat × Byte)) (a : Nat) (data : List Byte) : List (Nat × Byte) :=
  match eraseUnit sfdp with
  | none => programBytes m a data
  | some n =>
    (List.range (if data = [] then 0 else (a + data.length + n - 1) / n - a / n)).foldl
      (fun m i => rewriteBlock n a data m (a / n + i)) m

/-- A little-endian cell is written. -/
def flashPutCell (sfdp : Option Sfdp) (m : List (Nat × Byte)) (a : Nat) (w : Word) : List (Nat × Byte) :=
  flashPut sfdp m a (natBytes 4 w.toNat)

/-! ### The slot header -/

def slotSeq (f : Flash) : Word := flashCell f 4
def slotState (f : Flash) : Nat := fld (flashCell f 8) 0 2
def slotTries (f : Flash) : Nat := fld (flashCell f 8) 8 8
def slotCount (f : Flash) : Nat := fld (flashCell f 12) 0 16

/-- A digest as 48 bytes, its first byte first. -/
def digestBytes (d : BitVec 384) : List Byte := (List.range 48).map fun i => d.extractLsb' (376 - 8 * i) 8

/-- What the header digest covers: cells 0 to 3 and every directory entry. -/
def slotHashed (f : Flash) : List Byte := flashBytes f 0 16 ++ flashBytes f 128 (64 * slotCount f)

/-- The header is one, and its digest matches. -/
def headerOk (f : Flash) : Bool :=
  decide (flashCell f 0 = 0x544F4C53#32) && decide (slotCount f ≤ 511)
    && decide (flashBytes f 16 48 = digestBytes (Config.sha384 (slotHashed f)))

/-- Write cells of the header, and the digest that goes with them since without it the slot could never pass.
(DEDUCED, log 78) -/
def writeHeader (sfdp : Option Sfdp) (seq state tries count : Nat) (f : Flash) : Flash :=
  let f := { f with
    bytes := flashPutCell sfdp (flashPutCell sfdp (flashPutCell sfdp f.bytes 4 (BitVec.ofNat 32 seq)) 8
      (fldAt state 0 ||| fldAt tries 8)) 12 (BitVec.ofNat 32 count) }
  { f with bytes := flashPut sfdp f.bytes 16 (digestBytes (Config.sha384 (slotHashed f))) }

/-- Write STATE and TRIES. -/
def writeSlotState (sfdp : Option Sfdp) (state tries : Nat) (f : Flash) : Flash :=
  writeHeader sfdp (slotSeq f).toNat state tries (slotCount f) f

/-! ### The configuration record (R373) -/

/-- A field of the payload is outside its range. -/
def configBad (bs : List Byte) : Bool :=
  decide (bs.length ≠ 256 ∨ cellAt bs 0 ≠ 0x47464E43#32 ∨ cellAt bs 4 ≠ 1#32)
    || decide ((halfAt bs 8).toNat ≥ 4096 ∨ (halfAt bs 10).toNat ≥ 4096 ∨ (halfAt bs 12).toNat ≥ 4096)
    || !zeros bs 14 2
    || ((bs.drop 16).take 96).any (fun b => decide (fld b 3 2 = 3 ∨ fld b 5 3 ≠ 0))
    || (List.range 8).any (fun k => decide (fld (halfAt bs 112) (2 * k) 2 = 3))
    || !zeros bs 114 2
    || decide ((cellAt bs 116).toNat < 500 ∨ (cellAt bs 116).toNat > 1000000)
    || !zeros bs 120 136

/-- The record that a payload describes. -/
def configOf (bs : List Byte) : ConfigRec where
  addr := halfAt bs 8
  dims := halfAt bs 10
  tbRoot := halfAt bs 12
  ports := Vector.ofFn fun i : Fin 96 => bs.getD (16 + i.val) 0
  modes := halfAt bs 112
  sparge := cellAt bs 116

/-! ### Containers (R367 to R370) -/

def kKind (bs : List Byte) : Half := halfAt bs 8
def kGen (bs : List Byte) : Half := halfAt bs 10
def kSigner (bs : List Byte) : Nat := (bs.getD 12 0).toNat
def kTarget (bs : List Byte) : Word := cellAt bs 16
def kBaseRev (bs : List Byte) : Word := cellAt bs 28

/-- 1: MAGIC, VERSION, reserved bytes, and a KIND, SIGNER, TARGET and length that are consistent, with the directory entry
too. -/
def kHeaderOk (kind : Half) (bs : List Byte) : Bool :=
  decide (bs.length ≥ 512 ∧ cellAt bs 0 = 0x4353424F#32 ∧ cellAt bs 4 = 1#32)
    && zeros bs 13 3 && zeros bs 100 28 && zeros bs 136 120 && zeros bs 352 160
    && decide (kKind bs = kind ∧ 1 ≤ kind.toNat ∧ kind.toNat ≤ 7 ∧ 1 ≤ kSigner bs ∧ kSigner bs ≤ 2)
    && decide (cellAt bs 20 = cellAt bs 24 ∧ bs.length = 512 + (cellAt bs 24).toNat)
    && (if kind = 5 ∨ kind = 6 then decide (1 ≤ (kTarget bs).toNat ∧ (kTarget bs).toNat ≤ 0xFFFF)
      else decide (kTarget bs = 0xFFFF#32))
    && decide (kind = 3 ∨ kBaseRev bs = 0)

/-- 2: the serial number is 0 or the module's. -/
def kSerialOk (bs : List Byte) : Bool :=
  let n := bytesNat ((bs.drop 128).take 8)
  decide (n = 0 ∨ n = Config.serial.toNat)

/-- The signers allowed for kinds 4 to 7 in a life-cycle state (R376): 1 Obsum, 2 owner, 0 none. -/
def ownerSigner (state : Nat) : Nat := if state = 2 then 2 else if state = 4 then 0 else 1

/-- 3: the signer is allowed for this kind in the current life-cycle state. -/
def kSignerOk (state : Nat) (kind : Half) (signer : Nat) : Bool :=
  if kind.toNat ≤ 3 then decide (signer = 1) else decide (signer = ownerSigner state)

/-- The digest of a signer's public key: fused for Obsum, enrolled for the owner. -/
def signerKey (h : Hub) (signer : Nat) : Option (BitVec 384) :=
  if signer = 1 then h.fuses.obsumDigest else h.cask.owner.map (·.ownerKey)

/-- The signer's key-encryption key in the Cask. -/
def signerKek (h : Hub) (signer : Nat) : Option (BitVec 256) :=
  if signer = 1 then h.cask.obsumKek else h.cask.owner.map (·.ownerKek)

/-- 4: SIG verifies over bytes 0 to 255 and the ciphertext. -/
def kSigOk (h : Hub) (bs : List Byte) : Bool :=
  match signerKey h (kSigner bs) with
  | none => false
  | some d => Config.sigValid d (Config.sha384 (bs.take 256 ++ bs.drop 512)) ((bs.drop 256).take 96)

/-- 5: WKEY unwraps. -/
def kContentKey (h : Hub) (bs : List Byte) : Option (BitVec 256) :=
  match signerKek h (kSigner bs) with
  | none => none
  | some k => Config.keyUnwrap k ((bs.drop 32).take 40)

/-- 6: the ciphertext decrypts and its tag matches. -/
def kPlain (key : BitVec 256) (bs : List Byte) : Option (List Byte) :=
  Config.gcmOpen key ((bs.drop 72).take 12) (bs.take 256) (bs.drop 512) ((bs.drop 84).take 16)

/-- 7: the payload passes the checks of its own format; those of R91 on the composed microstore come after. -/
def kPayloadOk (kind : Half) (pl : List Byte) : Bool :=
  match kind.toNat with
  | 2 => (Config.microPart pl).isSome
  | 3 => (Config.microPart pl).isSome
  | 4 => (Config.microPart pl).isSome
  | 6 => match checkImage pl with | .ok _ => true | .error _ => false
  | 7 => !configBad pl
  | _ => true

/-- The checks of R369 in order: the number of the first that fails, or the plaintext. -/
def checkContainer (h : Hub) (kind : Half) (bs : List Byte) : Except Nat (List Byte) :=
  if kHeaderOk kind bs = false then .error 1
  else if kSerialOk bs = false then .error 2
  else if kSignerOk (lcState h.fuses) kind (kSigner bs) = false then .error 3
  else if kSigOk h bs = false then .error 4
  else
    match kContentKey h bs with
    | none => .error 5
    | some key =>
      match kPlain key bs with
      | none => .error 6
      | some pl => if kPayloadOk kind pl then .ok pl else .error 7

/-- The bytes of a container. -/
def containerBytes (f : Flash) (k : Container) : List Byte := flashBytes f k.offset k.length

/-- Directory entry `i`, checked. -/
def readContainer (h : Hub) (f : Flash) (i : Nat) : Container :=
  let at' := 128 + 64 * i
  let off := (flashCell f at').toNat
  let len := (flashCell f (at' + 4)).toNat
  let kind := memHalf f.bytes (at' + 8)
  let bs := flashBytes f off len
  { index := i, kind := kind, gen := kGen bs, target := (kTarget bs).setWidth 16, offset := off, length := len
    digest := Config.sha384 bs
    fail := match checkContainer h kind bs with | .ok _ => 0 | .error n => n }

/-- The containers of a slot. -/
def readSlot (h : Hub) (f : Flash) : List Container := (List.range (slotCount f)).map (readContainer h f)

/-- The containers of a kind. -/
def ofKind (ks : List Container) (kind : Half) : List Container := ks.filter fun k => decide (k.kind = kind)

/-- A container whose failure the spec answers without giving up the slot: kinds 4 to 7 (R92, R302, R362, R373). -/
def ownKind (k : Container) : Bool := decide (4 ≤ k.kind.toNat ∧ k.kind.toNat ≤ 7)

/-- Two containers of a list serve one channel. -/
def targetsMeet : List Container → Bool
  | [] => false
  | k :: t => t.any (fun x => decide (x.target &&& k.target ≠ 0)) || targetsMeet t

/-- The slot breaks R368. -/
def badCounts (ks : List Container) : Bool :=
  decide ((ofKind ks 1).length ≠ 1 ∨ (ofKind ks 2).length ≠ 1 ∨ (ofKind ks 7).length ≠ 1 ∨ (ofKind ks 4).length > 1)
    || decide (¬ ((ofKind ks 3).map (·.gen)).Nodup)
    || targetsMeet (ofKind ks 5) || targetsMeet (ofKind ks 6)

/-- The payload of a container that passed. -/
def payloadOf (h : Hub) (f : Flash) (k : Container) : Option (List Byte) :=
  match checkContainer h k.kind (containerBytes f k) with
  | .ok pl => some pl
  | .error _ => none

/-- A container's microstore part. -/
def partOf (h : Hub) (f : Flash) (k : Container) : Option MicroPart := (payloadOf h f k).bind Config.microPart

/-- Insert by ascending generation. -/
def insertGen (k : Container) : List Container → List Container
  | [] => [k]
  | x :: t => if k.gen.toNat < x.gen.toNat then k :: x :: t else x :: insertGen k t

/-- The kind-3 containers in ascending generation (R370). -/
def patchesOf (ks : List Container) : List Container := (ofKind ks 3).foldr insertGen []

/-- The base image's part. -/
def basePart (h : Hub) (f : Flash) (ks : List Container) : Option MicroPart := (ofKind ks 2).head?.bind (partOf h f)

/-- The patches with their parts. -/
def patchParts (h : Hub) (f : Flash) (ks : List Container) : List (Half × MicroPart) :=
  (patchesOf ks).filterMap fun k => (partOf h f k).map fun m => (k.gen, m)

/-- A patch whose BASE_REV is not the base image's revision (R370). -/
def wrongPatch (h : Hub) (f : Flash) (ks : List Container) : Option Container :=
  match basePart h f ks with
  | none => none
  | some b => (patchesOf ks).find? fun k => decide ((kBaseRev (containerBytes f k)).toNat ≠ b.rev.toNat)

/-- The two values of R371: the generation of the firmware, and the highest of the base image and patches. -/
def slotGens (ks : List Container) : Nat × Nat :=
  (((ofKind ks 1).head?.map (·.gen.toNat)).getD 0, (ofKind ks 2 ++ ofKind ks 3).foldl (fun m k => max m k.gen.toNat) 0)

/-- The owner floor of the sealed record. -/
def ownerFloor (h : Hub) : Half := (h.cask.owner.map (·.floor)).getD 0

/-- The generations are below a floor (R371). -/
def belowFloor (h : Hub) (ks : List Container) : Bool :=
  decide ((slotGens ks).1 < (floorOf h.fuses).toNat ∨ (slotGens ks).2 < (floorOf h.fuses).toNat)
    || ks.any fun k => ownKind k && decide (k.gen.toNat < (ownerFloor h).toNat)

/-- The owner set, if the slot holds one, or the check of R369 that it failed when the slot was read, or fails now
(R92, R363). (DEDUCED, log 77) -/
def ownerPart (h : Hub) (f : Flash) (ks : List Container) : Option (Except Nat MicroPart) :=
  (ofKind ks 4).head?.map fun k =>
    if k.fail ≠ 0 then .error k.fail
    else
      match partOf h f k with
      | some m => .ok m
      | none => .error 7

/-- The microstore that a slot gives (R91). -/
def slotStore (h : Hub) (f : Flash) (ks : List Container) : Except Nat (Microstore × Nat) :=
  match basePart h f ks with
  | none => .error 1
  | some b => compose b (patchParts h f ks) (ownerPart h f ks)

/-- The verdict on a slot: the code and directory index of SLOT_REJECTED (R390), or its containers.
(DEDUCED, log 77) -/
def checkSlot (h : Hub) (dev : Bool) : Except (Nat × Nat) (List Container) :=
  let f := flashOf h dev
  if headerOk f = false then .error (8, 0)
  else
    let ks := readSlot h f
    match ks.find? fun k => decide (k.fail ≠ 0) && !ownKind k with
    | some k => .error (k.fail, k.index)
    | none =>
      if badCounts ks then .error (9, 0)
      else
        match wrongPatch h f ks with
        | some k => .error (10, k.index)
        | none =>
          if belowFloor h ks then .error (11, 0)
          else
            match slotStore h f ks with
            | .error _ => .error (7, ((ofKind ks 2).head?.map (·.index)).getD 0)
            | .ok _ => .ok ks

/-! ### Slot choice (R367) -/

/-- A slot that is tried and used. -/
structure SlotUse where
  dev        : Bool
  containers : List Container

/-- The unit of a slot in an event. -/
def slotUnit (dev : Bool) : Byte := if dev then 1 else 0

/-- Log a rejected slot. -/
def rejectSlot (dev : Bool) (code index : Nat) (h : Hub) : Hub :=
  let h := logEvent h 0x31 (slotUnit dev) (fldAt code 0 ||| fldAt index 8)
  { h with boot := { h.boot with fail := if code ≤ 7 then BitVec.ofNat 8 code else 0 } }

/-- A PENDING slot becomes BAD. -/
def slotBad (dev : Bool) (h : Hub) : Hub :=
  let n := slotTries (flashOf h dev)
  logEvent (setFlash h dev (writeSlotState (Config.sfdp dev) 3 n)) 0x32 (slotUnit dev) (BitVec.ofNat 32 n)

/-- A PENDING slot that has reached 3 TRIES is BAD. -/
def dropTried (h : Hub) (dev : Bool) : Hub :=
  if slotState (flashOf h dev) = 2 ∧ slotTries (flashOf h dev) ≥ 3 then slotBad dev h else h

/-- Try a slot. -/
def trySlot (dev : Bool) (h : Hub) : Hub × Option SlotUse :=
  match checkSlot h dev with
  | .ok ks => (h, some { dev := dev, containers := ks })
  | .error e => (rejectSlot dev e.1 e.2 h, none)

/-- Try a PENDING slot: TRIES rises first, and a slot that fails becomes BAD. (DEDUCED, log 78) -/
def tryPending (dev : Bool) (h : Hub) : Hub × Option SlotUse :=
  let h := setFlash h dev (fun f => writeSlotState (Config.sfdp dev) 2 (slotTries f + 1) f)
  match trySlot dev h with
  | (h, some u) => (h, some u)
  | (h, none) => (slotBad dev h, none)

/-- Try slots in order until one passes. -/
def tryEach (f : Bool → Hub → Hub × Option SlotUse) : List Bool → Hub → Hub × Option SlotUse
  | [], h => (h, none)
  | d :: t, h =>
    match f d h with
    | (h, some u) => (h, some u)
    | (h, none) => tryEach f t h

/-- The devices whose slot is in a state, A first. -/
def devsIn (h : Hub) (state : Nat) : List Bool := [false, true].filter fun d => decide (slotState (flashOf h d) = state)

/-- SEQ of slot B is newer than that of slot A, modulo 2^32. -/
def newerB (h : Hub) : Bool :=
  let d := slotSeq (flashOf h true) - slotSeq (flashOf h false)
  decide (d ≠ 0 ∧ d.toNat < 2 ^ 31)

/-- Choose the slot. -/
def chooseSlot (h : Hub) : Hub × Option SlotUse :=
  let h := [false, true].foldl dropTried h
  match tryEach tryPending (devsIn h 2) h with
  | (h, some u) => (h, some u)
  | (h, none) => tryEach trySlot (if newerB h then (devsIn h 1).reverse else devsIn h 1) h

/-! ### Start step 3 (R360, R362, R373, R390) -/

/-- The configuration in force, with CONFIG_DEFAULT when no record passes. (DEDUCED, log 79) -/
def useConfig (use : Option SlotUse) (h : Hub) : Hub :=
  let put := fun (h : Hub) (r : ConfigRec) =>
    { h with boot := { h.boot with config := r }, services := { h.services with sparge := r.sparge } }
  match use with
  | none => put (logEvent h 0x35 0 0) ConfigRec.default
  | some u =>
    match (ofKind u.containers 7).head?.bind (payloadOf h (flashOf h u.dev)) with
    | some pl => put h (configOf pl)
    | none => put (logEvent h 0x35 0 1) ConfigRec.default

/-- OWNER_REJECTED, with the condition of R91 that rejected the owner set, or 0 where a check of R369 did.
(DEDUCED, log 79) -/
def noteOwner (use : Option SlotUse) (h : Hub) : Hub :=
  match use with
  | none => h
  | some u =>
    match (ofKind u.containers 4).head? with
    | none => h
    | some k =>
      if k.fail ≠ 0 then logEvent h 0x34 0 0
      else
        match slotStore h (flashOf h u.dev) u.containers with
        | .ok (_, n) => if n ≠ 0 then logEvent h 0x34 0 (BitVec.ofNat 32 n) else h
        | .error _ => h

/-- Step 3: Kiln chooses a slot, records its containers and the configuration, or the ROM recovery service runs. -/
def kilnStep (h : Hub) : Hub :=
  let r := chooseSlot h
  let h := noteOwner r.2 (useConfig r.2 r.1)
  match r.2 with
  | some u =>
    { h with boot := { h.boot with
      step := 3, slot := some u.dev, recovery := false, containers := u.containers
      read := flashRead (Config.sfdp u.dev), seqNo := slotSeq (flashOf h u.dev) } }
  | none =>
    let h := logEvent h 0x33 0 0
    { h with boot := { h.boot with
      step := 3, slot := none, recovery := true, containers := [], read := flashRead (Config.sfdp false) } }

end Sys2Proof.Machine
end

