-- ==== Sys2Proof/Machine/Start.lean ====
section
/-! DEFINITION. Life-cycle transitions, the Cask, tamper, and the start sequence of the module (R360 to R363, R374 to
R380, R400). -/

namespace Sys2Proof.Machine

/-! ### The Cask (R374, R375) -/

/-- A wipe of the Cask: every cell and key register is zeroed, the debug port closes, a pending unlock challenge goes, and
a debug command in progress ends with RESULT TAMPER (R375, R383). `derives` says what the key engine may do after. -/
def wipeCask (derives : Bool) (h : Hub) : Hub :=
  { h with
    cask := { Cask.reset with derives := derives }
    dap := { h.dap with
      level := 0, busy := false, asked := false, words := 0, data := [], resp := []
      result := if h.dap.busy then 7 else h.dap.result } }

/-- The sealed record opens under the sealing key of the current life-cycle state. -/
def openRecord (h : Hub) : Option Sealed :=
  match (recordNow h).sealedRec with
  | some r => if r.state = lcState h.fuses then some r else none
  | none => none

/-- The keys of start step 2: the Obsum key from fuses, the attestation and sealing keys from the device secret, and the
sealed record. After a tamper wipe the key engine derives nothing (R375). -/
def fillCask (h : Hub) : Hub :=
  if h.cask.derives then
    { h with cask := { h.cask with
      obsumKek := h.fuses.obsumKek, attest := h.fuses.deviceSecret.isSome
      sealing := if h.fuses.deviceSecret.isSome then some (lcState h.fuses) else none
      owner := if h.fuses.deviceSecret.isSome then openRecord h else none
      challenge := none, unlocked := false } }
  else h

/-! ### Tamper (R378, R379) -/

/-- The source of R23 that a tamper source reports at: the hub's monitors of supply, clock, temperature and lid,
the switch and the mesh both at the lid monitor. (DEDUCED, log 82) -/
def tamperSource (k : Nat) : Fin 8 :=
  match k with
  | 0 => 4
  | 1 => 5
  | 2 => 6
  | _ => 7

/-- A tamper source is found: the Cask is wiped, TAMPER_STAT latches it, and the module is fatal until aux power is
removed. A lid source in DEPLOYED makes the next start move to RETURNED. (DEDUCED, log 82) -/
def tamperNow (k : Fin 5) (s : State) : State :=
  let s := s.onHubOne fun h =>
    let h := wipeCask false h
    { h with
      tamper := h.tamper ||| BitVec.ofNat 5 (2 ^ k.val)
      supply := { h.supply with tampered := true }
      returnDue := h.returnDue || (decide (k.val ≥ 3) && decide (lcState h.fuses = 2)) }
  hubFatal s (tamperSource k.val) 0x23

/-- The source is a tamper source now: the lid switch where R380 says so, the lid mesh unless the switch is open in BLANK
or RETURNED. (DEDUCED, log 82) -/
def tamperSensed (h : Hub) (k : Fin 5) : Bool :=
  let st := lcState h.fuses
  if k.val = 3 then h.supply.lidOpen && decide (st = 1 ∨ st = 2)
  else if k.val = 4 then !(h.supply.lidOpen && decide (st = 0 ∨ st = 3))
  else true

/-- TAMPER_DETECT (R378). -/
def execTamperDetect (k : Fin 5) (s : State) : Host.Outcome State Fault Refusal :=
  if s.hub.supply.aux && tamperSensed s.hub k then .next (tamperNow k s) else .next s

/-! ### Transitions (R376) -/

/-- Program the steps of the thermometer up to a state; a step already programmed stays. -/
def programSteps (target : Nat) (f : Fuses) : Fuses :=
  { f with lc := Vector.ofFn fun i : Fin 4 => if i.val < target then 31 else f.lc[i] }

/-- Steps 2 to 5 of a transition: wipe, program, erase the sealed record, and write the new one where there is one. -/
def transitTo (target : Nat) (newRec : Option Sealed) (h : Hub) : Hub :=
  let h := wipeCask h.cask.derives h
  let h := { h with fuses := programSteps target h.fuses }
  let h := eraseSealed (logEvent h 0x3C 0 (BitVec.ofNat 32 target))
  if newRec.isSome then writeRecord h newRec else h

/-! ### Start steps 2 and 3 -/

/-- The hub as start step 2 finds it: nothing of the last start but what R400 and R421 keep, and the PLDM messages that
still wait (R390); a tamper fatal stays (R379). -/
def clearStart (h : Hub) : Hub :=
  { h with
    boot := { Boot.reset with step := 1 }
    services := { Services.reset with waiting := h.services.waiting }
    telemetry := { h.telemetry with ce := Vector.replicate 16 0, ucc := Vector.replicate 16 0 }
    supply := { h.supply with fatal := h.supply.tampered, on := disableRails h.supply.on, bypass := .retimed }
    heldStart := 0
    dap := { h.dap with level := 0, busy := false, asked := false, words := 0, data := [] } }

/-- Step 2 without the lid: keys into the Cask; the debug port is open in BLANK (R376). -/
def stepTwo (h : Hub) : Hub :=
  let h := fillCask h
  { h with
    boot := { h.boot with step := 2 }
    dap := { h.dap with level := if lcState h.fuses = 0 then 3 else 0 } }

/-- The lid switch as step 2 reads it, and a lid tamper that was latched in DEPLOYED (R379, R380): the transition to
RETURNED. -/
def lidReturn (h : Hub) : Hub :=
  if decide (lcState h.fuses = 2) && (h.supply.lidOpen || h.returnDue) then
    stepTwo { transitTo 3 none h with returnDue := false }
  else h

/-- An open lid switch that is not a tamper source is logged. -/
def lidLogged (h : Hub) : Hub :=
  if h.supply.lidOpen && decide (lcState h.fuses ≠ 1) then logEvent h 0x39 0 (BitVec.ofNat 32 (lcState h.fuses)) else h

/-- TAMPER_STAT.LID is the switch as read at this start. -/
def readLid (h : Hub) : Hub :=
  { h with tamper := (h.tamper &&& 0b10111) ||| (if h.supply.lidOpen then 0b01000 else 0) }

/-- The module starts from step 2: channels in reset, keys, lid, and then Kiln, but in RETIRED, where neither Kiln nor
main power starts (R376). An open lid in PROVISIONED is a tamper (R380). -/
def startFromTwo (s : State) : State :=
  let s := (darkAll false s).onHubOne fun h => lidLogged (readLid (lidReturn (stepTwo (clearStart h))))
  if s.hub.supply.lidOpen ∧ lcState s.hub.fuses = 1 then tamperNow 3 s
  else if lcState s.hub.fuses = 4 then s
  else s.onHubOne kilnStep

/-- A transition, and the restart from step 2 that ends it. -/
def transition (target : Nat) (newRec : Option Sealed) (s : State) : State :=
  startFromTwo (s.onHubOne (transitTo target newRec))

/-! ### Aux power (R360, R421, R424) -/

/-- The availability counts come from the record area. RECORD_COPY is logged for a copy that fails its CRC when another
copy is used (R366). -/
def readRecords (h : Hub) : Hub :=
  let r := recordNow h
  let h := { h with availUp := r.up, availDown := r.down, availPlan := r.planned }
  [(false, 0), (false, 1), (true, 0), (true, 1)].foldl (fun h p =>
    let v := (flashOf h p.1).records
    let c : RecordCopy := if p.2 = 0 then v[0] else v[1]
    if !c.crcOk && r.crcOk && (!p.1 || decide (bestCopy h.flash[0].records = none)) then
      logEvent h 0x36 (slotUnit p.1) (BitVec.ofNat 32 p.2)
    else h) h

/-- The SMBus address that the straps ADDR_SEL1 and ADDR_SEL0 give, bits 1 and 0 (R434). -/
def smbusOf (sel : BitVec 2) : BitVec 7 := 0x40 + sel.setWidth 7

/-- Step 1: the hub with aux power just applied, which reads the straps. What flash, fuses and the fence records hold stays.
-/
def auxApplied (h : Hub) : Hub :=
  { Hub.reset with
    fuses := h.fuses, flash := h.flash, held := h.held, untrained := h.untrained, heldTrain := h.heldTrain, returnDue := h.returnDue
    nonces := h.nonces
    telemetry := { Telemetry.reset with fences := h.telemetry.fences }
    pf0 := { Fn.reset with out := h.pf0.out }
    supply := { h.supply with
      aux := true, on := auxRails, smbus := smbusOf Config.addrSel, auxOnly := false, fatal := false, tampered := false
      bypass := .retimed }
    boot := { Boot.reset with step := 1 } }

/-- AUX_POWER_VALID: 12 V aux becomes valid. Steps 1 to 3, or, where the self-test, the ROM digest or the fuse read fails,
AUX-ONLY with no PF0 (R360, R362). -/
def execAuxPowerValid (selfTest : Bool) (s : State) : Host.Outcome State Fault Refusal :=
  if s.hub.supply.aux then .next s
  else
    let s := (darkAll false s).onHubOne auxApplied
    if selfTest then .next (startFromTwo (s.onHubOne readRecords))
    else .next (s.onHubOne fun h => { h with boot := { h.boot with selfFail := true } })

/-- What the loss of aux power takes away: the hub's volatile state, the Cask and the error log. The relays and the
retimers have no supply, so the bypass is passive (R336, R412). -/
def auxGone (h : Hub) : Hub :=
  { auxApplied h with
    boot := Boot.reset
    supply := { h.supply with
      aux := false, on := [], auxOnly := false, fatal := false, tampered := false, bypass := .passive } }

/-- AUX_POWER_REMOVED (R421): the main rails, which the hub holds on, go too. -/
def execAuxPowerRemoved (s : State) : Host.Outcome State Fault Refusal :=
  if s.hub.supply.aux then .next ((darkAll false s).onHubOne auxGone) else .next s

end Sys2Proof.Machine
end

