-- ==== Sys2Proof/Machine/Power.lean ====
section
/-! DEFINITION. Main power, AUX-ONLY and the 48 V input switch (R360 to R362, R400, R413, R414, R420, R429), and the
start of the channels: steps 4 to 10 (R284, R302, R335, R360, R363, R367). -/

namespace Sys2Proof.Machine

/-! ### Step 4 and its undoing -/

/-- A channel's rails are on: a new session value for its keg block, a free value of the channel, what the configuration
record fixes, and the repairs of the record area (R406). -/
def powerChan (r : ConfigRec) (rs : Repairs) (c : Ch) (ch : Chan) : Chan :=
  let d := drawFree ch
  let ch := withRepairs rs d.2
  { ch with
    keg := powerKeg r c (Config.freeWord d.1)
    fmt := Fmt.reset (cfgAddr r c)
    err := { ch.err with mode := cfgMode r c } }

/-- Main rails can be enabled: aux is valid, Kiln has finished, 48 V is valid through a closed switch, AUX_ONLY is 0, and
no fatal stands (R360, R400, R413, R420). -/
def canPower (h : Hub) : Bool :=
  h.supply.aux && decide (h.boot.step ≥ 3) && h.supply.main && h.supply.input && !h.supply.auxOnly && !h.supply.rails
    && !h.supply.fatal && !h.supply.tampered

/-- Step 4: the rails, the keg islands, and what the configuration record fixes in each channel. The ports stay in
bypass. -/
def stepFour (s : State) : State :=
  if canPower s.hub then
    let r := s.hub.boot.config
    let s := allChans.foldl (fun s c => s.onOne c (powerChan r (recorded s.hub c) c)) s
    s.onHubOne fun h => { h with supply := { h.supply with on := enableRails h.supply.on }, boot := { h.boot with step := 4 } }
  else s

/-- MAIN_POWER_START: 48 V is valid. A fatal other than tamper ends when 48 V comes back, and the Maltster starts again
from step 2 (R400). -/
def execMainPowerStart (s : State) : Host.Outcome State Fault Refusal :=
  if s.hub.supply.input then
    let was := s.hub.supply.main
    let s := s.onHubOne fun h => { h with supply := { h.supply with main := true } }
    let s := if managed s.hub && s.hub.supply.fatal && !s.hub.supply.tampered && !was then startFromTwo s else s
    .next (stepFour s)
  else .next s

/-- The channels go back into reset, the main rails go off and the bypasses close (R414, R420).
(DESIGN CHOICE, log 65) -/
def powerOff (s : State) : State :=
  let s := (darkAll true s).onAll allChans fun ch => { ch with fn := { ch.fn with retry := true } }
  s.onHubOne fun h => { h with
    supply := { h.supply with on := disableRails h.supply.on, bypass := if h.supply.aux then .retimed else .passive }
    boot := { h.boot with step := min h.boot.step 3 } }

/-- 48 V is lost: as R414 where the rails were on. (DESIGN CHOICE, log 65) -/
def mainLost (s : State) : State :=
  let s := if s.hub.supply.rails then powerOff s else s
  s.onHubOne fun h => { h with supply := { h.supply with main := false } }

/-- MAIN_LOST: 48 V is lost during start steps 4 to 9 (R390). -/
def logMainLost (h : Hub) : Hub :=
  if h.supply.rails && decide (h.boot.step < 10) && managed h then logEvent h 0x37 0 (BitVec.ofNat 32 h.boot.step) else h

/-- MAIN_POWER_LOST (R414). -/
def execMainPowerLost (s : State) : Host.Outcome State Fault Refusal :=
  if s.hub.supply.main then .next (mainLost (s.onHubOne logMainLost)) else .next s

/-- BOTH_SUPPLIES_LOST: the relays join the pairs passively (R336). -/
def execBothSuppliesLost (s : State) : Host.Outcome State Fault Refusal :=
  let s := mainLost s
  let s := if s.hub.supply.aux then (darkAll false s).onHubOne auxGone else s
  .next (s.onHubOne fun h => { h with supply := { h.supply with bypass := .passive } })

/-- INPUT_TRIP: the 48 V input switch opens (R429). (DEDUCED, log 66) -/
def execInputTrip (overcurrent : Bool) (s : State) : Host.Outcome State Fault Refusal :=
  if s.hub.supply.input then
    let s := s.onHubOne fun h =>
      if managed h then logEvent h 0x3A 0 (if overcurrent then 1 else 0) else h
    let s := mainLost s
    .next (s.onHubOne fun h => { h with supply := { h.supply with input := false } })
  else .next s

/-- INPUT_SWITCH_RECLOSE (R429). The 48 V that it lets in is valid with MAIN_POWER_START. -/
def execInputSwitchReclose (s : State) : Host.Outcome State Fault Refusal :=
  onHub (fun h => { h with supply := { h.supply with input := true } }) s

/-- MOD_PWR_CTL.AUX_ONLY is written: 1 takes the rails away, 0 resumes start at step 4 (R420). -/
def writeAuxOnly (on : Bool) (s : State) : State :=
  let s := s.onHubOne fun h => { h with supply := { h.supply with auxOnly := on } }
  if on then (if s.hub.supply.rails then powerOff s else s) else stepFour s

/-- AUX_ONLY_WRITE (R420). -/
def execAuxOnlyWrite (on : Bool) (s : State) : Host.Outcome State Fault Refusal :=
  if portUp s.hub then .next (writeAuxOnly on s) else .next s

/-! ### Fences and their reports (R396, R397, R405) -/

/-- The fences of a channel in the last 24 h of TIMEBASE. -/
def recentFences (h : Hub) (c : Ch) : List (BitVec 64) :=
  h.fenceTimes[c.val].filter fun t => decide ((h.timebase.count - t).toNat < 86400 * 10 ^ 9)

/-- The Maltster counts a fence; the third within 24 h holds the channel until the next module start. Vector 3 of PF0 is
sent. -/
def countFence (c : Ch) (h : Hub) : Hub :=
  let ts := recentFences h c ++ [h.timebase.count]
  { h with
    fenceTimes := h.fenceTimes.set c.val ts
    telemetry := { h.telemetry with
      fences := h.telemetry.fences.set c.val (satInc h.telemetry.fences[c.val] 1) }
    heldStart := if ts.length ≥ 3 then maskPut h.heldStart c true else h.heldStart
    pf0 := sendVec h.pf0 3 }

/-- The partner of a fenced member of a PAIRED pair goes on alone (R405). -/
def partnerAlone (c : Ch) (s : State) : State :=
  if (s.chan c).err.mode = 2 then
    s.onOne (partnerOf c) fun ch =>
      if ch.cstate = .fenced then ch else { ch with err := { ch.err with solo := true, partnerFenced := true } }
  else s

/-- A channel is held fenced at start with no error report of its own: no controller image, or no slot (R362). -/
def startFence (c : Ch) (s : State) : State :=
  let s := s.onOne c fun ch => chanVec (setCState ch .fenced) 257
  let s := s.onOne c fun ch => { ch with fn := aerUnc ch.fn 0 }
  partnerAlone c (s.onHubOne (countFence c))

/-! ### Steps 5 to 7 (R284, R362, R363) -/

/-- A container has not changed since step 3 recorded its digest (R363). -/
def sameDigest (f : Flash) (k : Container) : Bool := decide (Config.sha384 (containerBytes f k) = k.digest)

/-- A container of a kind for a channel. -/
def forChan (ks : List Container) (kind : Half) (c : Ch) : Option Container :=
  (ofKind ks kind).find? fun k => maskAt k.target c

/-- A row of the repair record is repaired, or found to have no repair resources left (R284). (DESIGN CHOICE, log 123) -/
def repairRow (t : HbmTrain) (r : RepairRow) : RepairRow :=
  if r.state = .pending then { r with state := if r.row ∈ t.exhausted then .exhausted else .repaired } else r

/-- HBM training: lanes mapped, rows of the repair record repaired, 16 GiB zeroed.
(DEDUCED, log 67; DESIGN CHOICE, log 106) -/
def trainHbm (t : HbmTrain) (ch : Chan) : Chan :=
  { ch with hbm := { Hbm.reset with trained := true, lanes := t.lanes, record := ch.hbm.record.map (repairRow t) } }

/-- The microstore broadcast. -/
def loadStore (m : Microstore) (ch : Chan) : Chan :=
  { ch with seq := { ch.seq with ustore := m.words, rtab := m.entries, ustoreId := m.id } }

/-- The controller image goes into IMEM from address 0. (DESIGN CHOICE, log 80) -/
def loadImem (pl : List Byte) (ch : Chan) : Chan :=
  { ch with mem := { ch.mem with imem := memSetBytes [] 0 (pl.take imemSize), imarks := [] } }

/-- A fenced channel counts as ready (R353). (DEDUCED, log 67) -/
def fencedReady (c : Ch) (s : State) : State := if (s.chan c).cstate = .fenced then chanReady s c else s

/-- A sequencer copy that fails its read-back twice: its tun is marked failed (R60, R61, R362). (DEDUCED, log 68) -/
def failCopy (c : Ch) (s : State) (u : Nat) : State :=
  let s := s.onHubOne fun h => logEvent h 0x38 (BitVec.ofNat 8 u) (BitVec.ofNat 32 c.val)
  let r := repairTun (s.chan c) (u / 9) (u % 9)
  (s.setChan c r.1).onHubOne fun h => recordRepairs c r.1 (holdFence c r.2 h)

/-- Kiln reads the controller image of a channel, and the containers of the microstore. (DEDUCED, log 68) -/
def loadChan (c : Ch) (dev : Bool) (s : State) : State :=
  let h := s.hub
  let f := flashOf h dev
  let ks := h.boot.containers
  match forChan ks 5 c with
  | none => startFence c (s.onHubOne fun h => logEvent h 0x30 (BitVec.ofNat 8 c.val) 0)
  | some k =>
    if k.fail ≠ 0 then
      startFence c (s.onHubOne fun h => logEvent h 0x30 (BitVec.ofNat 8 c.val) (BitVec.ofNat 32 k.fail))
    else if (ks.filter fun x => decide (2 ≤ x.kind.toNat ∧ x.kind.toNat ≤ 4) || decide (x = k)).all (sameDigest f) then
      match slotStore h f ks, payloadOf h f k with
      | .ok (m, _), some pl => s.onOne c fun ch => loadImem pl (loadStore m ch)
      | _, _ => s.onOne c fun ch => fenceChan ch 0x1C 0 0
    else s.onOne c fun ch => fenceChan ch 0x1C 0 0

/-- Step 6 fails: the channel is fenced. Where the training failed at the last start too, this restart has not cleared the
fence (R284, R397). -/
def untrainable (c : Ch) (pc : BitVec 5) (s : State) : State :=
  let again := maskAt s.hub.untrained c
  let s := s.onOne c fun ch => fenceChan ch 0x10 (pc.setWidth 8) 0
  s.onHubOne fun h => { h with
    untrained := maskPut h.untrained c true
    heldTrain := maskPut h.heldTrain c again }

/-- The channel may leave reset: step 4 has ended, PERST_N is released, and the channel waits in start. -/
def mayLeaveReset (h : Hub) (c : Ch) (ch : Chan) : Bool :=
  restartable h && decide (h.boot.step ≥ 4) && decide (ch.cstate = .starting) && !maskAt h.loaded c

/-- Steps 5 to 7 of one channel. -/
def leaveReset (c : Ch) (t : HbmTrain) (copies : List Nat) (s : State) : State :=
  if isHeld s.hub c then
    (s.onOne c fun ch => chanVec (setCState ch .fenced) 257).onHubOne fun h => { h with pf0 := sendVec h.pf0 3 }
  else
    match s.hub.boot.slot with
    | none => startFence c s
    | some dev =>
      match t.failing with
      | none =>
        let s := s.onOne c (trainHbm t)
        let s := s.onHubOne fun h => { h with
          untrained := maskPut h.untrained c false, heldTrain := maskPut h.heldTrain c false }
        let s := loadChan c dev s
        if (s.chan c).cstate = .starting then copies.foldl (failCopy c) s else s
      | some pc => untrainable c pc s

/-- BOOT_STAT.STEP rises. (DEDUCED, log 69) -/
def stepTo (n : Nat) (h : Hub) : Hub := { h with boot := { h.boot with step := max h.boot.step n } }

/-- Every channel is fenced, or has a bit in a mask. -/
def allIn (s : State) (x : BitVec 16) : Bool := allChans.all fun c => decide ((s.chan c).cstate = .fenced) || maskAt x c

/-- Steps of the module that end when every channel has ended its own, and the verdict on a PENDING slot (R360, R367).
(DEDUCED, log 69) -/
def settleStart (s : State) : State :=
  let s := if allIn s s.hub.loaded && decide (s.hub.boot.step ≥ 4) then s.onHubOne (stepTo 7) else s
  if allIn s s.hub.milled && decide (s.hub.boot.step ≥ 7) then s.onHubOne (stepTo 8) else s

/-- CHANNEL_LEAVE_RESET: steps 5 to 7 for one channel, as its HBM trains and its sequencer copies read back. -/
def execChannelLeaveReset (c : Ch) (hbm : HbmTrain) (copies : List Nat) (s : State) :
    Host.Outcome State Fault Refusal :=
  if mayLeaveReset s.hub c (s.chan c) then
    let s := leaveReset c hbm (copies.filter fun u => decide (u < 72)) s
    let s := s.onHubOne fun h => { h with loaded := maskPut h.loaded c true }
    .next (settleStart (fencedReady c s))
  else .next s

/-! ### Step 8 (R302) -/

/-- The image of a mill container, or the condition of R301 that it meets, 0 where a check before the payload failed. -/
def millPayload (h : Hub) (f : Flash) (k : Container) : Except Nat MillImage :=
  let bs := containerBytes f k
  if k.fail ≠ 0 ∧ k.fail ≠ 7 then .error 0
  else
    match (kContentKey h bs).bind fun key => kPlain key bs with
    | none => .error 0
    | some pl => checkImage pl

/-- The Mill enters RUN with an image: its clock trees run, and reset tree 0 is released. -/
def millStart (i : MillImage) (m : Mill) : Mill :=
  millHeld { m with
    state := .run, loaded := some i, image := some i, cfg := i.cells, ram := i.ram.map fun p => (p.1, withParity p.2)
    ramOut := Vector.replicate 64 0, scrub := 0, scrubAt := 0, checks := 0 }

/-- The Mill enters FAILED, which is reported as an event. (DEDUCED, log 70) -/
def millFailed (n : Nat) (ch : Chan) : Chan :=
  report (setMill ch fun m => { m with state := .failed, failcode := BitVec.ofNat 4 n }) .event 0x18 0 0

/-- Step 8 of one channel: the check of R301, of which a frame whose CRC fails twice is condition 2, and the read-back.
(DEDUCED, log 70) -/
def millLoad (c : Ch) (ends : MillTransfer) (s : State) : State :=
  let h := s.hub
  match h.boot.slot with
  | none => s
  | some dev =>
    match forChan h.boot.containers 6 c with
    | none => s.onOne c fun ch => setMill ch fun m => { m with state := .none }
    | some k =>
      if sameDigest (flashOf h dev) k then
        match millPayload h (flashOf h dev) k with
        | .error n => s.onOne c (millFailed n)
        | .ok i =>
          match ends with
          | .good => s.onOne c fun ch => setMill ch (millStart i)
          | .crcTwice => s.onOne c (millFailed 2)
          | .mismatch => s.onOne c (millFailed 0)
      else s.onOne c fun ch => fenceChan ch 0x1C 0 0

/-- MILL_LOAD (R302), once step 7 has ended. -/
def execMillLoad (c : Ch) (ends : MillTransfer) (s : State) : Host.Outcome State Fault Refusal :=
  if restartable s.hub && decide ((s.chan c).cstate = .starting) && maskAt s.hub.loaded c && !maskAt s.hub.milled c then
    let s := millLoad c ends s
    let s := s.onHubOne fun h => { h with milled := maskPut h.milled c true }
    .next (settleStart (fencedReady c s))
  else .next s

/-! ### Steps 9 and 10 -/

/-- KEG_BYPASS_OPEN: every channel has finished step 8 or is fenced (R335, R360). -/
def execKegBypassOpen (s : State) : Host.Outcome State Fault Refusal :=
  if restartable s.hub && decide (s.hub.boot.step ≥ 4) && allIn s s.hub.milled then
    .next (s.onHubOne fun h => stepTo 9 { h with supply := { h.supply with bypass := .opened } })
  else .next s

/-- A channel that start has brought to RUN. -/
def started (ch : Chan) : Bool := decide (ch.cstate = .run ∨ ch.cstate = .idle ∨ ch.cstate = .doze)

/-- A PENDING slot in use becomes VALID when all channels have reached RUN (R367). -/
def keepSlot (h : Hub) : Hub :=
  match h.boot.slot with
  | none => h
  | some dev =>
    if slotState (flashOf h dev) = 2 then setFlash h dev (fun f => writeSlotState (Config.sfdp dev) 1 (slotTries f) f) else h

/-- A channel enters RUN: its controller starts at the RESET vector, and its function is ready (R353, R360). -/
def enterRun (c : Ch) (s : State) : State :=
  let s := chanReady (s.onOne c fun ch => setCState ch .run) c
  let s := if allChans.all fun d => started (s.chan d) then s.onHubOne keepSlot else s
  if s.hub.ready = 0xFFFF then s.onHubOne (stepTo 10) else s

/-- CHANNEL_ENTER_RUN: its steps 6, 8 and 9 have ended. -/
def execChannelEnterRun (c : Ch) (s : State) : Host.Outcome State Fault Refusal :=
  if restartable s.hub && decide ((s.chan c).cstate = .starting) && maskAt s.hub.loaded c && maskAt s.hub.milled c
      && bypassOpen s.hub then
    .next (enterRun c s)
  else .next s

end Sys2Proof.Machine
end

