-- ==== Sys2Proof/Machine/HostReset.lean ====
section
/-! DEFINITION. The host link and its resets (R341, R350, R356 to R358, R361). -/

namespace Sys2Proof.Machine

/-! ### Functions by number (R343) -/

/-- The channel that function `f` serves; none for PF0. -/
def fnChan (f : Fin 17) : Option Ch := if f.val = 0 then none else some (Fin.ofNat 16 (f.val - 1))

/-- A function. -/
def fnOf (s : State) (f : Fin 17) : Fn :=
  match fnChan f with
  | none => s.hub.pf0
  | some c => (s.chan c).fn

/-- Channel 2k + 1 of a pair learns the enables of PF1 + 2k (R404). -/
def tellPair (c : Ch) (s : State) : State :=
  if (s.chan c).err.mode = 2 ∧ c.val % 2 = 0 then
    s.onOne (c + 1) fun ch => { ch with err := { ch.err with
      pair := engineOf (s.chan c).fn } }
  else s

/-- Change a function. -/
def onFn (f : Fin 17) (g : Fn → Fn) (s : State) : State :=
  match fnChan f with
  | none => s.onHubOne fun h => { h with pf0 := g h.pf0 }
  | some c => tellPair c (s.onOne c fun ch => { ch with fn := g ch.fn })

/-- Every channel function's configuration state is reset. -/
def resetChanFns (s : State) : State :=
  s.onAll allChans fun ch => { ch with
    fn := { Fn.reset with out := ch.fn.out }, err := { ch.err with pair := engineOf Fn.reset } }

/-- The functions that a write to function `f` applies to: the function of an even channel in PAIRED mode stands for both
(R404). -/
def fnWrites (s : State) (f : Fin 17) : List (Fin 17) :=
  match fnChan f with
  | none => [f]
  | some c => if (s.chan c).err.mode = 2 ∧ c.val % 2 = 0 then [f, f + 1] else [f]

/-- Apply a change to the functions that a write applies to. -/
def onFns (s : State) (f : Fin 17) (g : Fn → Fn) : State := (fnWrites s f).foldl (fun s k => onFn k g s) s

/-- The configuration state of a function is reset (R357); what it has sent stays. -/
def resetFn (f : Fn) : Fn := { Fn.reset with out := f.out }

/-! ### The link (R341) -/

/-- The host port trains: management works, PERST_N is released, and the module is not RETIRED (R362, R376, R420). -/
def canTrain (h : Hub) : Bool := portUp h && decide (lcState h.fuses ≠ 4)

/-- The link is up, so that requests of the host arrive. (DESIGN CHOICE, log 83) -/
def linkUp (h : Hub) : Bool := canTrain h && decide (h.link.speed ≠ 0)

/-- Lanes `lo` to `lo + w − 1` all train at a rate, 1 to 6; `lanes` says which do at each. -/
def lanesGood (lanes : Vector Half 6) (rate lo w : Nat) : Bool :=
  (List.range w).all fun i => bit (lanes.toList.getD (rate - 1) 0) (lo + i)

/-- The highest rate of both ends; 64.0 GT/s requires FLIT mode (R339). -/
def linkSpeed (p : LinkPartner) : Nat := min p.speed.toNat (if p.flit then 6 else 5)

/-- The highest rate at which the `w` lanes from `lo` all train, 0 when none does. -/
def speedAt (lanes : Vector Half 6) (p : LinkPartner) (lo w : Nat) : Nat :=
  ([6, 5, 4, 3, 2, 1].find? fun r => decide (r ≤ linkSpeed p) && lanesGood lanes r lo w).getD 0

/-- The ways to form a width (R341): lanes 0 to w − 1, or lanes 15 to 16 − w reversed; a slot that is wired reversed forms
the full width only reversed, and prefers that at every width. -/
def linkForms (p : LinkPartner) (w : Nat) : List (Nat × Bool) :=
  if p.flipped then (16 - w, true) :: (if w = 16 then [] else [(0, false)])
  else (0, false) :: (if w = 16 then [] else [(16 - w, true)])

/-- The fastest form of a width, the first of those that are as fast: its rate and whether it is reversed. -/
def bestForm (lanes : Vector Half 6) (p : LinkPartner) (w : Nat) : Nat × Bool :=
  ((linkForms p w).map fun x => (speedAt lanes p x.1 w, x.2)).foldl (fun a b => if b.1 > a.1 then b else a) (0, false)

/-- The link after training with a partner, on the lanes that train: the largest width, then the highest rate (R341).
(DESIGN CHOICE, log 83) -/
def trained (lanes : Vector Half 6) (p : LinkPartner) : HostLink :=
  match [16, 8, 4, 2, 1].find? fun w => decide (w ≤ p.width.toNat) && decide ((bestForm lanes p w).1 ≠ 0) with
  | none => { speed := 0, width := 0, reversed := false, flit := false }
  | some w =>
    { speed := BitVec.ofNat 3 (bestForm lanes p w).1, width := BitVec.ofNat 5 w, reversed := (bestForm lanes p w).2
      flit := p.flit }

/-- The link trains where it can. -/
def trainLink (lanes : Vector Half 6) (p : LinkPartner) (h : Hub) : Hub := if canTrain h then { h with link := trained lanes p } else h

/-- The link is down. -/
def linkDown (h : Hub) : Hub := { h with link := { speed := 0, width := 0, reversed := false, flit := false } }

/-- PERST_N_RELEASE: the link trains; step 5 of the channels may begin (R341, R361). -/
def execPerstNRelease (lanes : Vector Half 6) (partner : LinkPartner) (s : State) : Host.Outcome State Fault Refusal :=
  if s.hub.supply.perst then
    onHub (fun h => trainLink lanes partner { h with supply := { h.supply with perst := false } }) s
  else .next s

/-! ### Resets (R357) -/

/-- PF0's module registers return to reset, but for PLANNED and AUX_ONLY: the latches of the availability counts, and the
host's requests for DOZE. -/
def resetPf0Regs (s : State) : State :=
  (s.onAll allChans fun ch => { ch with pwr := { ch.pwr with reqHost := false } }).onHubOne fun h =>
    { h with latchUp := 0, latchDown := 0, latchPlan := 0, pf0 := resetFn h.pf0 }

/-- PERST_N_ASSERT: the link and the configuration state are reset, and every channel is held in reset. -/
def execPerstNAssert (s : State) : Host.Outcome State Fault Refusal :=
  if s.hub.supply.perst then .next s
  else
    let s := if s.hub.supply.fatal then resetChanFns s else holdAll false s
    .next ((resetPf0Regs s).onHubOne fun h => linkDown { h with supply := { h.supply with perst := true } })

/-- Every channel restarts, pairs together. -/
def restartEvery (s : State) : State :=
  if restartable s.hub then allChans.foldl soloIfHeld (allChans.foldl (restartOne false) s)
  else resetChanFns s

/-- A hot reset or a link-down: the configuration state is reset, and every channel restarts. -/
def linkLost (s : State) : State := (resetPf0Regs (restartEvery s)).onHubOne linkDown

/-- An uncorrectable link error is recorded in PF0, and its message sent per severity before the link goes down. The record
stays, as AER status does in PCIe (R354). (PRESUMED, log 121) -/
def linkError (err : Option (Fin 3)) (s : State) : State :=
  match err with
  | none => linkLost s
  | some k =>
    let s := linkLost (s.onHubOne fun h => { h with pf0 := aerUnc h.pf0 (4 + k.val) })
    s.onHubOne fun h => { h with pf0 := { h.pf0 with aer := aerSet h.pf0.aer (4 + k.val) } }

/-- HOT_RESET: a hot reset, or a link-down, which an uncorrectable link error may cause. -/
def execHotReset (err : Option (Fin 3)) (s : State) : Host.Outcome State Fault Refusal :=
  if linkUp s.hub then .next (linkError err s) else .next s

/-- LINK_RETRAIN (R341). The link may have corrected errors before, which PF0 records (R354); where nothing trains any more,
the link is down. -/
def execLinkRetrain (lanes : Vector Half 6) (partner : LinkPartner) (corrected : BitVec 6) (s : State) :
    Host.Outcome State Fault Refusal :=
  let t := s.onHubOne fun h =>
    trainLink lanes partner (if linkUp h then { h with pf0 := aerLinkCor corrected h.pf0 } else h)
  if linkUp s.hub && !linkUp t.hub then .next (linkLost s) else .next t

/-- FLR_CHANNEL_FUNCTION: the function's configuration state is reset, and its channel restarts with its pair partner
(R357, R358, R405). -/
def execFlrChannelFunction (c : Ch) (s : State) : Host.Outcome State Fault Refusal :=
  if linkUp s.hub then
    .next (tellPair c ((restartChannel true c s).onOne c fun ch => { ch with fn := resetFn ch.fn }))
  else .next s

/-- FLR_PF0. -/
def execFlrPf0 (s : State) : Host.Outcome State Fault Refusal :=
  if linkUp s.hub then .next (resetPf0Regs s) else .next s

/-- PM_STATE_CHANGE: a function enters D3hot, where its BARs do not decode, or returns to D0, which resets nothing
(R350). -/
def execPmStateChange (f : Fin 17) (d3 : Bool) (s : State) : Host.Outcome State Fault Refusal :=
  if linkUp s.hub then .next (onFns s f fun fn => { fn with d3 := d3 }) else .next s

end Sys2Proof.Machine
end

