-- ==== Sys2Proof/Machine/HostPort.lean ====
section
/-! DEFINITION. What the functions answer to configuration requests (R343, R344, R352 to R354), and the memory requests
of the channel functions: register pages, the DMEM window and BAR2 (R340, R345 to R350, R404). -/

namespace Sys2Proof.Machine

/-! ### Configuration requests -/

/-- Dword 0 of configuration space (R343). -/
def cfgId (f : Fin 17) : Word := (if f.val = 0 then 0x0A00#16 else 0x0A01#16) ++ Config.vendorId

/-- Class code and Revision ID. -/
def cfgClass (f : Fin 17) : Word :=
  (if f.val = 0 then 0x088000#24 else 0x120000#24) ++ (Config.siliconRev.setWidth 8 : Byte)

/-- Subsystem ID and Subsystem Vendor ID. -/
def cfgSubsystem : Word := (if Config.extended then 2#16 else 1#16) ++ Config.vendorId

/-- The ARI Next Function Number, in bits 15 to 8 as in the ARI Capability register. -/
def cfgAri (f : Fin 17) : Word := fldAt (if f.val = 16 then 0 else f.val + 1) 8

/-- The AER status bits of R354, in the order of `Aer`. -/
def aerWord (a : Aer) : Word :=
  bitAt a.corInternal 0 ||| bitAt a.uncInternal 1 ||| bitAt a.poisoned 2 ||| bitAt a.unsupported 3 ||| bitAt a.timeout 4
    ||| fldAt a.link.toNat 5 ||| fldAt a.linkCor.toNat 8

/-- A write of 1 clears a status bit. -/
def aerClear (x : BitVec 14) (a : Aer) : Aer :=
  { a with
    corInternal := a.corInternal && !bit x 0, uncInternal := a.uncInternal && !bit x 1
    poisoned := a.poisoned && !bit x 2, unsupported := a.unsupported && !bit x 3
    timeout := a.timeout && !bit x 4, link := a.link &&& ~~~(x.extractLsb' 5 3)
    linkCor := a.linkCor &&& ~~~(x.extractLsb' 8 6) }

/-- The capability IDs of a function, in the order in which they are linked (R344): Power Management, PCI Express, MSI-X;
then Advanced Error Reporting, ARI, and in PF0 Device Serial Number, Secondary PCI Express, Data Link Feature, Physical
Layer 16.0, 32.0 and 64.0 GT/s, and Lane Margining. The IDs are those of the PCIe specification. (PRESUMED, log 120) -/
def capabilities (f : Fin 17) : List Nat :=
  [0x01, 0x10, 0x11, 0x0001, 0x000E]
    ++ (if f.val = 0 then [0x0003, 0x0019, 0x0025, 0x0026, 0x002A, 0x0031, 0x0027] else [])

/-- A dword of the BARs (R345): BAR0 is 64-bit and not prefetchable, BAR2 of a channel function 64-bit and prefetchable;
every other BAR reads 0. -/
def barWord (f : Fin 17) (fn : Fn) (k : Nat) : Word :=
  match k with
  | 0 => fn.bar0.setWidth 32 ||| 0x4
  | 1 => fn.bar0.extractLsb' 32 32
  | 2 => if f.val = 0 then 0 else fn.bar2.setWidth 32 ||| 0xC
  | 3 => if f.val = 0 then 0 else fn.bar2.extractLsb' 32 32
  | _ => 0

/-- The features of R339 whose Supported bit reads 1. -/
def supports : PcieFeature → Bool
  | .ecrcGeneration | .ecrcChecking | .aspmL1 | .noSoftReset | .tag10 | .tag14 | .flit => true
  | .aspmL0s | .l0p | .l1Substates | .pme | .legacyInterrupt | .msi | .sriov | .ats | .pri | .pasid | .tph | .atomicOp
  | .cxl => false

/-- MSI-X vectors of a function (R344). -/
def vectorsOf (f : Fin 17) : Nat := if f.val = 0 then 4 else 260

/-- What a configuration request reads; a write reads nothing. The layout of each answer is the model's own, but for whole
dwords that the spec gives. Code 2 in bits [30:28] of the controls is the Max Payload Size of 512 bytes that the module
supports (R339). (DESIGN CHOICE, log 84) -/
def cfgRead (h : Hub) (f : Fin 17) (fn : Fn) : CfgReq → Word
  | .readId => cfgId f
  | .readClass => cfgClass f
  | .readSubsystem => cfgSubsystem
  | .readAri => cfgAri f
  | .readSerial high =>
    if f.val = 0 then (if high then Config.serial.extractLsb' 32 32 else Config.serial.setWidth 32) else 0
  | .readInterruptPin => 0
  | .readBar k => barWord f fn k.val
  | .readCapability k => BitVec.ofNat 32 ((capabilities f).getD k 0)
  | .readFeature x => bitAt (supports x) 0
  | .readPower => fldAt (if fn.d3 then 3 else 0) 0 ||| bitAt true 3
  | .readMsix => fldAt (vectorsOf f - 1) 0 ||| bitAt fn.funcMask 14 ||| bitAt fn.msixEn 15
  | .readLink => if f.val = 0 then fldAt h.link.speed.toNat 0 ||| fldAt h.link.width.toNat 4 else 0
  | .readControl =>
    bitAt fn.mse 1 ||| bitAt fn.bme 2 ||| bitAt fn.relaxed 4 ||| fldAt fn.maxPayload.toNat 5 ||| fldAt fn.maxRead.toNat 12
      ||| fldAt fn.errEn.toNat 16 ||| fldAt fn.aspm.toNat 20 ||| bitAt fn.ecrcGen 22 ||| bitAt fn.ecrcChk 23
      ||| fldAt fn.ctoRange.toNat 24 ||| fldAt 2 28
  | .aerStatus => aerWord fn.aer
  | .command _ _ | .msixControl _ _ | .deviceControl _ _ _ _ | .linkControl _ | .ecrcControl _ _ | .timeoutRange _
  | .bar0 _ | .bar2 _ | .aerClear _ | .aerMask _ _ | .aerSeverity _ => 0

/-- What a configuration request sets. A pending vector that is no longer masked sends its message (R351).
(DESIGN CHOICE, log 84) -/
def cfgWrite (f : Fin 17) (req : CfgReq) (fn : Fn) : Fn :=
  match req with
  | .readId | .readClass | .readSubsystem | .readAri | .readSerial _ | .readInterruptPin | .readBar _
  | .readCapability _ | .readFeature _ | .readPower | .readMsix | .readLink | .readControl | .aerStatus => fn
  | .command mse bme => { fn with mse := mse, bme := bme }
  | .msixControl en mask => flushPending { fn with msixEn := en, funcMask := mask }
  | .deviceControl relaxed errEn pay rd => { fn with relaxed := relaxed, errEn := errEn, maxPayload := pay, maxRead := rd }
  | .linkControl aspm => { fn with aspm := aspm }
  | .ecrcControl gen chk => { fn with ecrcGen := gen, ecrcChk := chk }
  | .timeoutRange r => { fn with ctoRange := r }
  | .bar0 base => { fn with bar0 := base &&& ~~~0xFFFF#64 }
  | .bar2 base => if f.val = 0 then fn else { fn with bar2 := base &&& ~~~0x3FFFFFFFF#64 }
  | .aerClear x => { fn with aer := aerClear x fn.aer }
  | .aerMask cor unc => { fn with aer := { fn.aer with maskCor := cor, maskUnc := unc } }
  | .aerSeverity unc => { fn with aer := { fn.aer with severity := unc } }

/-- A channel function whose channel is not ready after its configuration state was reset answers with Configuration
Request Retry Status (R353). -/
def retries (s : State) (f : Fin 17) : Bool :=
  match fnChan f with
  | none => false
  | some c => (s.chan c).fn.retry && !maskAt s.hub.ready c

/-- HOST_CONFIG_REQUEST (R353). -/
def execHostConfigRequest (f : Fin 17) (req : CfgReq) (s : State) : Host.Outcome State Fault Refusal :=
  if linkUp s.hub = false then .next s
  else if retries s f then .next (onFn f (fun fn => fnSend fn .retry) s)
  else
    let w := cfgRead s.hub f (fnOf s f) req
    .next (onFn f (fun fn => fnSend fn (.config w)) (onFns s f (cfgWrite f req)))

/-! ### Memory requests: who answers -/

/-- The function decodes memory requests: Memory Space Enable is 1, and it is in D0 (R340, R350). -/
def decodes (fn : Fn) : Bool := fn.mse && !fn.d3

/-- A request under R340: Unsupported Request is recorded. -/
def noteUr (f : Fin 17) (s : State) : State := onFn f (fun fn => aerUnc fn 2) s

/-- A function sends a completion. -/
def answer (f : Fin 17) (o : HostOut) (s : State) : State := onFn f (fun fn => fnSend fn o) s

/-- The function of a channel. -/
def chanFn (c : Ch) : Fin 17 := ⟨c.val + 1, by omega⟩

/-- A completion with EP set and all-ones data. -/
def poisonedData (n : Nat) : HostOut := .data (List.replicate n 0xFF) true

/-- A read of a channel function beyond the pages that are always served: by the channels that run, both members of a
pair compared and the even one's answer returned; else Unsupported Request in DOZE, and EP with all ones in a fenced,
frozen, starting or fatal channel and in the second function of a pair (R350, R404, R409). -/
def serveRead (c : Ch) (n : Nat) (rd : Chan → HostOut × Chan) (s : State) : State :=
  let f := chanFn c
  match takers s c with
  | [] => answer f (if (s.chan c).cstate = .doze then .unsupported else poisonedData n) s
  | [d] =>
    let r := rd (wakeIdle (s.chan d))
    answer f r.1 (s.setChan d r.2)
  | d :: e :: _ =>
    let r := rd (wakeIdle (s.chan d))
    let r' := rd (wakeIdle (s.chan e))
    let s := (s.setChan d r.2).setChan e r'.2
    if r.1 = r'.1 then answer f r.1 s
    else answer f (poisonedData n) (s.onAll [d, e] fun ch => fenceChan ch 0x14 0 0)

/-- A read of a channel function: Unsupported Request where it does not decode (R340), and in AUX-ONLY (R420). -/
def chanRead (c : Ch) (n : Nat) (rd : Chan → HostOut × Chan) (s : State) : State :=
  let f := chanFn c
  if linkUp s.hub = false then s
  else if decodes (s.chan c).fn = false then answer f .unsupported (noteUr f s)
  else if s.hub.supply.rails = false then answer f .unsupported s
  else serveRead c n rd s

/-- A posted write of a channel function, by the channels that run; others discard it. -/
def chanWrite (c : Ch) (wr : Chan → Chan) (s : State) : State :=
  if linkUp s.hub = false then s
  else if decodes (s.chan c).fn = false then noteUr (chanFn c) s
  else if s.hub.supply.rails = false then s
  else s.onAll (takers s c) fun ch => wr (wakeIdle ch)

/-! ### Register pages (R345, R346) -/

/-- The dword of BAR0 at `off` of a channel function is in a page that is served in every state (R350).
(DEDUCED, log 85) -/
def alwaysServed (off : Nat) : Bool :=
  decide (off < 0x40 ∨ 0x4000 ≤ off ∧ off < 0x5040 ∨ 0x5400 ≤ off ∧ off < 0x5428)

/-- A dword of an MSI-X table that starts at `base`. -/
def tableWord (fn : Fn) (k : Nat) : Word := (msixEntry fn (k / 4)).extractLsb' (32 * (k % 4)) 32

/-- A dword of a Pending Bit Array. -/
def pbaWord (fn : Fn) (k : Nat) : Word :=
  (List.range 32).foldl (fun acc i => acc ||| bitAt (decide (32 * k + i ∈ fn.pba)) i) 0

/-- The io address of a BAR0 offset; none where the map assigns no register. -/
def bar0Io (off : Nat) : Option Nat :=
  if off < 0x40 then some (0x1C00 + off / 4)
  else if 0x2000 ≤ off ∧ off < 0x4000 then some (0x800 + (off - 0x2000) / 4)
  else none

/-- A dword of a channel function's register pages. -/
def pageWord (h : Hub) (ch : Chan) (off : Nat) : Word :=
  if 0x4000 ≤ off ∧ off < 0x5040 then tableWord ch.fn ((off - 0x4000) / 4)
  else if 0x5400 ≤ off ∧ off < 0x5428 then pbaWord ch.fn ((off - 0x5400) / 4)
  else
    match bar0Io off with
    | none => 0
    | some a => (ioRead h ch a).getD 0

/-- The dwords of a read, as bytes. -/
def pageBytes (g : Nat → Word) (off count : Nat) : List Byte :=
  (List.range count).flatMap fun k => natBytes 4 (g (off / 4 * 4 + 4 * k)).toNat

/-- Set one cell of an MSI-X table entry: 0 and 1 the address, 2 the data, 3 the vector control. A vector that is no
longer masked sends its pending message. -/
def setTableCell (vec cell : Nat) (v : Word) (fn : Fn) : Fn :=
  let e := msixEntry fn vec
  let e' := (e &&& ~~~((0xFFFFFFFF#32).setWidth 128 <<< (32 * cell))) ||| (v.setWidth 128 <<< (32 * cell))
  flushPending { fn with table := sparseSet (1#128 <<< 96) fn.table vec e' }

/-- A host write to io 0x1C00 to 0x1C0F: HWIN_BASE, and H2C_MBOX, which raises line 5 (13, Registers). -/
def hostRegWrite (a : Nat) (v : Word) (ch : Chan) : Chan :=
  if a = 0x1C01 then { ch with host := { ch.host with hwin := v.extractLsb' 15 5 } }
  else if a = 0x1C02 then raiseLine { ch with host := { ch.host with h2c := v } } 5
  else ch

/-- A dword write to a page of a channel that is always served. -/
def pageWrite (off : Nat) (v : Word) (ch : Chan) : Chan :=
  if off < 0x40 then hostRegWrite (0x1C00 + off / 4) v ch
  else if 0x4000 ≤ off ∧ off < 0x5040 then
    { ch with fn := setTableCell ((off - 0x4000) / 16) ((off - 0x4000) / 4 % 4) v ch.fn }
  else ch

/-- A dword write to the queue registers. -/
def queueWrite (off : Nat) (v : Word) (ch : Chan) : Chan :=
  if 0x2000 ≤ off ∧ off < 0x4000 then writeRackReg (0x800 + (off - 0x2000) / 4) v ch else ch

/-- The channels that a write to an always served page of a channel's function applies to (R404). -/
def pageTakers (s : State) (c : Ch) : List Ch :=
  if (s.chan c).err.mode = 2 ∧ c.val % 2 = 0 then [c, partnerOf c] else [c]

/-- One dword write to a channel function (R346). -/
def chanDwordWrite (c : Ch) (s : State) (off : Nat) (v : Word) : State :=
  if alwaysServed off then s.onAll (pageTakers s c) fun ch => pageWrite off v (wakeIdle ch)
  else s.onAll (takers s c) fun ch => queueWrite off v (wakeIdle ch)

/-- The writes of a TLP: the dwords with all four byte enables, in ascending order. -/
def wholeDwords (off : Nat) (data : List Dword) : List (Nat × Word) :=
  (data.zipIdx.filter fun p => decide (p.1.enables = 15)).map fun p => (off / 4 * 4 + 4 * p.2, p.1.value)

/-- The write at an offset meets an OUT to the same queue register in the same cycle, and is discarded (R269). -/
def outWins (met : List Nat) (off : Nat) : Bool := decide (0x2000 ≤ off ∧ off < 0x4000 ∧ off ∈ met)

/-- A register page write of a channel function. -/
def chanPageWrite (c : Ch) (off : Nat) (data : List Dword) (met : List Nat) (s : State) : State :=
  if decodes (s.chan c).fn = false then noteUr (chanFn c) s
  else if s.hub.supply.rails = false then s
  else
    ((wholeDwords off data).filter fun p => !outWins met p.1).foldl (fun s p => chanDwordWrite c s p.1 p.2) s

/-- The members of a pair that a read of an always served page of PF1 + 2k asks: one that its partner has not had to leave
alone; any other channel answers for itself (R404, R405). -/
def pageReaders (s : State) (c : Ch) : List Ch :=
  let ds := (pageTakers s c).filter fun d => decide (pageTakers s c = [c]) || !(s.chan (partnerOf d)).err.solo
  if ds = [] then [c] else ds

/-- A read of an always served page: both members of a pair are read, as PF1 + 2k shows them, and compared (R404).
(DEDUCED, log 85) -/
def servedRead (c : Ch) (n : Nat) (rd : Chan → HostOut × Chan) (s : State) : State :=
  let seen := fun (s : State) (d : Ch) => (rd { wakeIdle (s.chan d) with fn := (s.chan c).fn }).1
  let ds := pageReaders s c
  let s' := s.onAll ds wakeIdle
  match ds.map (seen s) with
  | [] => s'
  | x :: rest =>
    if rest.all (fun y => decide (y = x)) then answer (chanFn c) x s'
    else answer (chanFn c) (poisonedData n) (s'.onAll ds fun ch => fenceChan ch 0x14 0 0)

/-- A register page read of a channel function. -/
def chanPageRead (c : Ch) (off count : Nat) (s : State) : State :=
  let rd := fun (ch : Chan) => ((HostOut.data (pageBytes (pageWord s.hub ch) off count) false), ch)
  if decodes (s.chan c).fn && s.hub.supply.rails && alwaysServed off then servedRead c (4 * count) rd s
  else chanRead c (4 * count) rd s

/-! ### The DMEM window (R347) -/

/-- The DMEM byte of a window offset, the offset counted from the start of the window. -/
def windowAddr (ch : Chan) (off : Nat) : Nat := ch.host.hwin.toNat * 32768 + off

/-- A window read of one word's bytes: all ones and EP where the word is uncorrectable. (DEDUCED, log 87) -/
def windowPiece (r : List Byte × Bool × Chan) (p : Nat × Nat × Nat) : List Byte × Bool × Chan :=
  let w := p.2.1 / 4
  if p.2.1 ≥ dmemSize then (r.1 ++ List.replicate p.2.2 0, r.2)
  else if markUe r.2.2.mem.dmarks w then (r.1 ++ List.replicate p.2.2 0xFF, true, reportDmemUe r.2.2 (4 * w))
  else (r.1 ++ memBytes r.2.2.mem.dmem p.2.1 p.2.2, r.2.1, dmemCheck r.2.2 w)

/-- A window read. -/
def windowRead (off count : Nat) (ch : Chan) : HostOut × Chan :=
  let r := (piecesOf (windowAddr ch off) count).foldl windowPiece ([], false, ch)
  (.data r.1 r.2.1, r.2.2)

/-- A host write to DMEM is lost: DMEM_LOST.HOST counts it, and vector 259 is sent when the count increases (R238, R351).
(DEDUCED, log 104) -/
def loseHost (ch : Chan) : Chan :=
  if ch.mem.lostHost = 0xFFFF then ch
  else chanVec { ch with mem := { ch.mem with lostHost := satInc16 ch.mem.lostHost 1 } } 259

/-- The bytes of a word's write that are enabled. -/
def enabledMask (off : Nat) (bs : List (Option Byte)) : BitVec 4 :=
  (bs.zipIdx.foldl (fun m p => if p.1.isSome then m ||| BitVec.ofNat 4 (2 ^ ((off + p.2) % 4)) else m) 0)

/-- A window write of one word's bytes, which port A may make drop; part of an uncorrectable word is not written, and the
word is reported (R240, R241). (DEDUCED, log 87; DESIGN CHOICE, log 108) -/
def windowPut (clash : List Nat) (data : List (Option Byte)) (ch : Chan) (p : Nat × Nat × Nat) : Chan :=
  let bs := (data.drop p.1).take p.2.2
  let m := enabledMask p.2.1 bs
  let w := p.2.1 / 4
  if p.2.1 ≥ dmemSize ∨ m = 0 then ch
  else if w ∈ clash then loseHost ch
  else
    let x := BitVec.ofNat 32 (bytesNat (bs.map (·.getD 0)) * 2 ^ (8 * (p.2.1 % 4)))
    let r := putDmem ch w x m 0
    if r.2 then r.1 else loseHost (reportDmemUe r.1 (4 * w))

/-- A window write. -/
def windowWrite (clash : List Nat) (off : Nat) (data : List (Option Byte)) (ch : Chan) : Chan :=
  (piecesOf (windowAddr ch off) data.length).foldl (windowPut clash data) ch

/-! ### BAR2 (R348) -/

/-- BAR2 maps 16 GiB. -/
def bar2Size : Nat := 2 ^ 34

/-- A BAR2 read of one block's bytes. -/
def bar2Piece (addr n : Nat) (r : List Byte × Bool × Chan) (b : Nat) : List Byte × Bool × Chan :=
  let lo := max addr (32 * b)
  let k := min (addr + n) (32 * b + 32) - lo
  if hbmUe r.2.2 b then (r.1 ++ List.replicate k 0xFF, true, hbmFound r.2.2 b)
  else
    let ch := if (hbmMark r.2.2 b).isSome then hbmCorrect r.2.2 b else r.2.2
    (r.1 ++ memBytes r.2.2.hbm.bytes lo k, r.2.1, ch)

/-- A BAR2 read. -/
def bar2Read (addr n : Nat) (ch : Chan) : HostOut × Chan :=
  let r := (blocksOf addr n).foldl (bar2Piece addr n) ([], false, ch)
  (.data r.1 r.2.1, r.2.2)

/-- Put the enabled bytes. -/
def putEnabled (m : List (Nat × Byte)) (lo : Nat) (bs : List (Option Byte)) : List (Nat × Byte) :=
  bs.zipIdx.foldl (fun m p => match p.1 with | some x => memSetByte m (lo + p.2) x | none => m) m

/-- A BAR2 write of one block's bytes: a read-modify-write unless it covers the block whole. -/
def bar2Put (addr : Nat) (data : List (Option Byte)) (ch : Chan) (b : Nat) : Chan :=
  let lo := max addr (32 * b)
  let bs := (data.drop (lo - addr)).take (min (addr + data.length) (32 * b + 32) - lo)
  let whole := decide (bs.length = 32) && bs.all (·.isSome)
  if bs.all (·.isNone) then ch
  else if !whole && hbmUe ch b then hbmFound ch b
  else
    let ch := if !whole && (hbmMark ch b).isSome then hbmCorrect ch b else ch
    { ch with hbm := { ch.hbm with
      bytes := putEnabled ch.hbm.bytes lo bs, marks := ch.hbm.marks.filter fun m => decide (m.block ≠ b) } }

/-- A BAR2 write. -/
def bar2Write (addr : Nat) (data : List (Option Byte)) (ch : Chan) : Chan :=
  (blocksOf addr data.length).foldl (bar2Put addr data) ch

/-! ### The rows -/

/-- A request outside every enabled BAR (R340). -/
def outsideBar (f : Fin 17) (read : Bool) (s : State) : State :=
  if linkUp s.hub then (if read then answer f .unsupported (noteUr f s) else noteUr f s) else s

/-- HOST_DMEM_WINDOW_READ (R347). -/
def execHostDmemWindowRead (c : Ch) (off count : Nat) (s : State) : Host.Outcome State Fault Refusal :=
  if off + count > 0x8000 then .next (outsideBar (chanFn c) true s)
  else .next (chanRead c count (windowRead off count) s)

/-- HOST_DMEM_WINDOW_WRITE (R347); `clash` are the words that port A writes in the same cycle (R237). -/
def execHostDmemWindowWrite (c : Ch) (off : Nat) (data : List (Option Byte)) (clash : List Nat) (s : State) :
    Host.Outcome State Fault Refusal :=
  if off + data.length > 0x8000 then .next (outsideBar (chanFn c) false s)
  else .next (chanWrite c (windowWrite clash off data) s)

/-- HOST_BAR2_READ (R348). -/
def execHostBar2Read (c : Ch) (addr count : Nat) (s : State) : Host.Outcome State Fault Refusal :=
  if addr + count > bar2Size then .next (outsideBar (chanFn c) true s)
  else .next (chanRead c count (bar2Read addr count) s)

/-- HOST_BAR2_WRITE (R348). -/
def execHostBar2Write (c : Ch) (addr : Nat) (data : List (Option Byte)) (s : State) :
    Host.Outcome State Fault Refusal :=
  if addr + data.length > bar2Size then .next (outsideBar (chanFn c) false s)
  else .next (chanWrite c (bar2Write addr data) s)

/-- HOST_UNSUPPORTED_REQUEST: an AtomicOp, a request with a PASID or TPH prefix, or one outside every enabled BAR (R340). -/
def execHostUnsupportedRequest (f : Fin 17) (s : State) : Host.Outcome State Fault Refusal :=
  .next (outsideBar f true s)

/-- HOST_POISONED_WRITE: the data is discarded (R354). -/
def execHostPoisonedWrite (f : Fin 17) (s : State) : Host.Outcome State Fault Refusal :=
  if linkUp s.hub then .next (onFn f (fun fn => aerUnc fn 1) s) else .next s

/-- A read of the racking engine times out (R352, R354). -/
def readTimeout (tag : Nat) (ch : Chan) : Chan :=
  match hostWaiter ch tag with
  | none => ch
  | some e =>
    let ch' := hostFailed ch e
    match e.state with
    | .reading => { ch' with fn := aerUnc ch'.fn 3 }
    | .hostRead _ _ => { ch' with fn := aerUnc ch'.fn 3 }
    | _ => ch

/-- HOST_READ_TIMEOUT (R352). -/
def execHostReadTimeout (c : Ch) (tag : Nat) (s : State) : Host.Outcome State Fault Refusal :=
  onAnswer c (readTimeout tag) s

/-- H2C_MBOX_WRITE: the host writes the mailbox (R197; 13, Registers). -/
def execH2cMboxWrite (c : Ch) (v : Word) (s : State) : Host.Outcome State Fault Refusal :=
  if linkUp s.hub then .next (chanPageWrite c 8 [{ value := v, enables := 15 }] [] s) else .next s

/-- C2H_MBOX_WRITE: the controller's OUT to the mailbox takes effect and sends vector 256 (R351). -/
def execC2hMboxWrite (c : Ch) (v : Word) (s : State) : Host.Outcome State Fault Refusal :=
  onChan c (writeReg s.hub 0x1C03 v) s

/-- MGMT_MB_WRITE: the Maltster writes the channel mailbox, which raises line 6 (R197). The spec names no register that
takes the value. (UNVERIFIED, log 88) -/
def execMgmtMbWrite (c : Ch) (_v : Word) (s : State) : Host.Outcome State Fault Refusal :=
  if managed s.hub && restartable s.hub then onChan c (fun ch => raiseLine ch 6) s else .next s

end Sys2Proof.Machine
end

