-- ==== Sys2Proof/Machine/Pairs.lean ====
section
/-! DEFINITION. PAIRED mode: the outputs of the two channels of a pair are compared, and one copy of each is sent; a member
that runs alone sends its own (R169, R404, R405). -/

namespace Sys2Proof.Machine

/-! ### Comparing -/

/-- The kind of an output: outputs of one kind are compared in order, those of two kinds in any. A read is apart from the
writes and vectors; every edge is apart. (DESIGN CHOICE, log 94) -/
def outKind : PairOut → Nat
  | .host (.read _ _ _) => 0
  | .host _ => 1
  | .vec _ => 1
  | .packet _ => 2
  | .gor _ _ => 3
  | .root _ => 4
  | .image _ _ => 5
  | .slot d _ => 6 + 2 * d
  | .retire d => 7 + 2 * d

/-- What comparing the outputs of two members gives: those that agree, in the even channel's order, what is left of each
member's, and whether two outputs differ. -/
structure Compared where
  sent   : List PairOut
  even   : List PairOut
  odd    : List PairOut
  differ : Bool
  deriving DecidableEq, Repr

/-- Compare the outputs of the even channel with those of the odd one, each with the first of its kind; nothing is compared
after two that differ. -/
def compareOuts : List PairOut → List PairOut → Compared
  | [], os => { sent := [], even := [], odd := os, differ := false }
  | x :: xs, os =>
    match os.find? fun y => decide (outKind y = outKind x) with
    | none =>
      let r := compareOuts xs os
      { r with even := x :: r.even }
    | some y =>
      if x = y then
        let r := compareOuts xs (os.erase y)
        { r with sent := x :: r.sent }
      else { sent := [], even := x :: xs, odd := os, differ := true }

/-! ### Sending -/

/-- The channels whose ports carry an edge of a pair: W the even one's, E the odd one's, N and S each its own (R404). -/
def edgeOwners (e : Ch) (d : Nat) : List Ch := if d = 3 then [e] else if d = 1 then [e + 1] else [e, e + 1]

/-- A packet enters the router of a channel with its route from there. -/
def startPacketAt (ch : Chan) (p : Packet) : Chan := enterRouter ch (setRoute p (startRoute ch.keg (pDest p)))

/-- An output of the pair of even channel `e` goes out: to the host through PF1 + 2k, as a packet through the router of
channel `r`, and to the ports that carry an edge. -/
def sendOut (e r : Ch) (s : State) (x : PairOut) : State :=
  match x with
  | .host o => s.onOne e fun ch => { ch with fn := fnSend ch.fn o }
  | .vec v => s.onOne e fun ch => { ch with fn := sendVec ch.fn v }
  | .packet p => s.onOne r fun ch => startPacketAt ch p
  | .slot d slot => s.onAll (edgeOwners e d) (sendSlot d slot)
  | .retire d => s.onAll (edgeOwners e d) (sendCredit d)
  | .gor _ _ => s
  | .image _ _ => s
  | .root _ => s

/-- What a member alone does at the ports of its fenced partner, whose keg block passes its traffic on: an exported slot is
outstanding there too, and a slot that it retires leaves the buffer that holds its copy (R405). -/
def forFenced (x : PairOut) (ch : Chan) : Chan :=
  match x with
  | .slot d _ => setEdge ch d { edgeAt ch d with outstanding := (edgeAt ch d).outstanding + 1 }
  | .retire d => setEdge ch d { edgeAt ch d with buf := (edgeAt ch d).buf.drop 1 }
  | _ => ch

/-- Channel `d` of the pair of even channel `e` runs alone, and sends an output. -/
def sendAlone (e d : Ch) (s : State) (x : PairOut) : State := (sendOut e d s x).onOne (partnerOf d) (forFenced x)

/-- Leave some outputs of a channel. -/
def leaveCopies (xs : List PairOut) (ch : Chan) : Chan := { ch with err := { ch.err with copies := xs } }

/-- The outputs that members compare over the interior link: those of ports (R404). (DESIGN CHOICE, log 94) -/
def overLink : PairOut → Bool
  | .packet _ => true
  | .slot _ _ => true
  | .retire _ => true
  | _ => false

/-- An output that the partner's ports carry too. -/
def atPartner (e d : Ch) : PairOut → Bool
  | .slot k _ => decide (partnerOf d ∈ edgeOwners e k)
  | .retire k => decide (partnerOf d ∈ edgeOwners e k)
  | _ => false

/-! ### A pair -/

/-- Both members run and compare. -/
def pairCompares (s : State) (c : Ch) : Bool := comparing (s.chan c) && comparing (s.chan (partnerOf c))

/-- The outputs of the pair of even channel `e` are compared: what agrees is sent, and a difference fences both with code
0x14. A member alone sends all that it has, and its partner's outputs are dropped. What crosses the interior link waits
while that link is down (R404, R405). -/
def settlePair (e : Ch) (s : State) : State :=
  if (s.chan e).err.mode ≠ 2 then s
  else
    let o := partnerOf e
    if pairCompares s e then
      let held := fun x => overLink x && !interiorUp s e
      let xs := (s.chan e).err.copies
      let ys := (s.chan o).err.copies
      let r := compareOuts (xs.filter fun x => !held x) (ys.filter fun y => !held y)
      let s := (s.onOne e (leaveCopies (r.even ++ xs.filter held))).onOne o (leaveCopies (r.odd ++ ys.filter held))
      let s := r.sent.foldl (sendOut e e) s
      if r.differ then s.onAll [e, o] fun ch => fenceChan ch 0x14 0 0 else s
    else
      let d := if (s.chan e).err.solo then e else o
      if (s.chan d).err.solo then
        let held := fun x => atPartner e d x && !interiorUp s e
        let xs := (s.chan d).err.copies
        let s := s.onAll [e, o] fun ch => leaveCopies [] ch
        (xs.filter fun x => !held x).foldl (sendAlone e d) (s.onOne d (leaveCopies (xs.filter held)))
      else s

/-- The eight pairs. -/
def settlePairs (s : State) : State := (allChans.filter fun c => decide (c.val % 2 = 0)).foldl (fun s e => settlePair e s) s

end Sys2Proof.Machine
end

