-- ==== Sys2Proof/Machine/Errors.lean ====
section
/-! DEFINITION. Error sources outside a channel's own blocks, the Maltster's acceptance of reports, availability, telemetry
and capture (R23, R24, R191, R351, R354, R394 to R409). -/

namespace Sys2Proof.Machine

/-! ### Accepting a report (R24, R354, R396 to R400) -/

/-- A UCC report in a channel that is already fenced, and that does not carry the fence, is logged only (R398). -/
def loggedOnly (ch : Chan) (r : Report) (rest : List Report) : Bool :=
  decide (ch.cstate = .fenced) && !r.fence && !(rest.any (·.fence))

/-- The fence of a member of a PAIRED pair: code 0x14 fences both, any other leaves the partner alone (R398, R405).
(DEDUCED, log 92) -/
def pairFence (c : Ch) (code : Byte) (s : State) : State :=
  if (s.chan c).err.mode ≠ 2 then s
  else if code = 0x14 then
    s.onOne (partnerOf c) fun ch => if ch.cstate = .fenced then ch else fenceChan ch 0x14 0 0
  else partnerAlone c s

/-- The log entry of a report, with the dropped CE reports of its source where it is a CE report. -/
def logReport (source : BitVec 5) (dropped : Nat) (r : Report) (h : Hub) : Hub :=
  logWrite h source (classBits r.cls) r.code r.unit (if r.cls = .ce then min dropped 255 else 0) r.detail

/-- What is left of a source when its oldest report is taken. -/
def takeReport (r : Report) (src : Source) : Source :=
  { sourceTake src with dropped := if r.cls = .ce then 0 else src.dropped }

/-- The Maltster handles a corrected error of a channel. (DEDUCED, log 89) -/
def acceptCe (c : Ch) (s : State) : State :=
  (s.onOne c fun ch => { ch with fn := aerCor ch.fn }).onHubOne fun h =>
    { h with telemetry := { h.telemetry with ce := h.telemetry.ce.set c.val (satInc h.telemetry.ce[c.val] 1) } }

/-- The Maltster handles a UCC of a channel: the counts, AER and vector 257, and the fence that it carries, which makes a
channel in start ready (R353).
(DEDUCED, log 89) -/
def acceptUcc (c : Ch) (r : Report) (rest : List Report) (s : State) : State :=
  let only := loggedOnly (s.chan c) r rest
  let s := s.onHubOne fun h => saveRecord { h with
    telemetry := { h.telemetry with ucc := h.telemetry.ucc.set c.val (satInc h.telemetry.ucc[c.val] 1) } }
  if only then s
  else
    let s := s.onOne c fun ch => chanVec { ch with fn := aerUnc ch.fn 0 } 257
    if r.fence then settleStart (fencedReady c (pairFence c r.code (s.onHubOne (countFence c)))) else s

/-- Accept the oldest report of channel `c`; HBM rows that have come into its repair record are recorded then (R285, R406).
-/
def acceptChan (c : Ch) (r : Report) (rest : List Report) (s : State) : State :=
  let src := (s.chan c).err.src
  let s := s.onOne c fun ch => { ch with err := { ch.err with src := takeReport r src } }
  let s := s.onHubOne fun h => logReport (BitVec.ofNat 5 c.val) src.dropped r (recordRepairs c (s.chan c) h)
  match r.cls with
  | .ce => acceptCe c s
  | .ucc => acceptUcc c r (rest ++ src.waiting) s
  | .fatal => moduleFatal (s.onHubOne saveRecord)
  | .event => s

/-- Accept the oldest report of hub source `16 + k`. -/
def acceptHub (k : Fin 8) (r : Report) (s : State) : State :=
  let src := s.hub.log.sources[k]
  let s := s.onHubOne fun h =>
    logReport (BitVec.ofNat 5 (16 + k.val)) src.dropped r
      { h with log := { h.log with sources := h.log.sources.set k (takeReport r src) } }
  match r.cls with
  | .ce => s.onHubOne fun h => { h with pf0 := aerCor h.pf0 }
  | .ucc => s.onHubOne fun h => saveRecord { h with pf0 := aerUnc h.pf0 0 }
  | .fatal => moduleFatal (s.onHubOne saveRecord)
  | .event => s

/-- A hub source reports an error while the Maltster handles a UCC or fatal report: the module is fatal (R398, R399). -/
def secondError (second : Option (Fin 8)) (cls : ErrClass) (s : State) : State :=
  match second with
  | none => s
  | some k =>
    if cls = .ucc ∨ cls = .fatal then
      moduleFatal (s.onHubOne fun h => saveRecord (logWrite h (BitVec.ofNat 5 (16 + k.val)) 2 0x22 0 0 0))
    else s

/-- Reports are accepted in ascending source number: the channels first. -/
def acceptNext (second : Option (Fin 8)) (s : State) : State :=
  match allChans.find? fun c => decide ((s.chan c).err.src.queue ≠ []) with
  | some c =>
    match (s.chan c).err.src.queue with
    | r :: rest => secondError second r.cls (acceptChan c r rest s)
    | [] => s
  | none =>
    match (List.finRange 8).find? fun k => decide (s.hub.log.sources[k].queue ≠ []) with
    | some k =>
      match s.hub.log.sources[k].queue with
      | r :: _ => secondError second r.cls (acceptHub k r s)
      | [] => s
    | none => s

/-- ERROR_REPORT_ACCEPT (R23, R24). -/
def execErrorReportAccept (second : Option (Fin 8)) (s : State) : Host.Outcome State Fault Refusal :=
  if managed s.hub then .next (acceptNext second s) else .next s

/-! ### Sources (R394) -/

/-- The channel's logic has power, and the module is not fatal. -/
def monitored (h : Hub) : Bool := managed h && h.supply.rails && !h.supply.fatal

/-- CHANNEL_OVERTEMP: above 97 °C an event and MCHK MGMT, above 105 °C a fence (R394, R395). -/
def execChannelOvertemp (c : Ch) (hot : Bool) (s : State) : Host.Outcome State Fault Refusal :=
  if monitored s.hub then
    onChan c (fun ch => if hot then fenceChan ch 0x1E 0 0 else raiseMchk (report ch .event 0x1D 0 0) 3) s
  else .next s

/-- CHANNEL_PLL_UNLOCK: one channel's PLL fences it; more than one at once is the loss of the module's reference, which is
fatal (R13, R394). -/
def execChannelPllUnlock (which : BitVec 16) (s : State) : Host.Outcome State Fault Refusal :=
  if monitored s.hub then
    match allChans.filter (maskAt which) with
    | [] => .next s
    | [c] => onChan c (fun ch => fenceChan ch 0x25 0 0) s
    | _ => .next (hubFatal s 5 0x24)
  else .next s

/-- PAIRED_COMPARE_TIMEOUT: the second copy of a compared output has not come within 1 ms, which fences both (R404). -/
def execPairedCompareTimeout (c : Ch) (s : State) : Host.Outcome State Fault Refusal :=
  let pair := [c, partnerOf c]
  let s := settlePair (if c.val % 2 = 0 then c else partnerOf c) s
  if pairCompares s c && pair.any (fun d => decide ((s.chan d).err.copies ≠ [])) then
    .next (s.onAll pair fun ch => fenceChan ch 0x14 0 0)
  else .next s

/-- CONTROLLER_CORE_CHECK: UCC 0x15 and MCHK with cause CORE (R191, R394). -/
def execControllerCoreCheck (c : Ch) (s : State) : Host.Outcome State Fault Refusal :=
  onChan c (whileClocked fun ch => raiseMchk (report ch .ucc 0x15 0 0) 1) s

/-- MALTSTER_LOCKSTEP_MISMATCH: the lockstep pair disagrees, or the ROM, the Cask or the error log has an uncorrectable
error: fatal, code 0x21 (R394, R399). -/
def execMaltsterLockstepMismatch (s : State) : Host.Outcome State Fault Refusal :=
  if managed s.hub then
    .next (moduleFatal (s.onHubOne fun h => saveRecord (logWrite h (Config.eventSource 0x21) 2 0x21 0 0 0)))
  else .next s

/-- HOST_PORT_INTERNAL_ERROR: fatal, code 0x20, from the host port (R394). -/
def execHostPortInternalError (s : State) : Host.Outcome State Fault Refusal :=
  if managed s.hub then .next (hubFatal s 0 0x20) else .next s

/-- LID_SWITCH_LATCH: the lid switch latches open, or Obsum's fixture closes it (R380). While it is a tamper source,
TAMPER_DETECT follows. -/
def execLidSwitchLatch (isOpen : Bool) (s : State) : Host.Outcome State Fault Refusal :=
  onHub (fun h => { h with supply := { h.supply with lidOpen := isOpen } }) s

/-! ### Availability and telemetry (R351, R407) -/

/-- The module is up: PF0 answers, and every channel runs, with no fence, restart, capture-and-freeze or fatal.
(DESIGN CHOICE, log 90) -/
def moduleUp (s : State) : Bool :=
  linkUp s.hub && !s.hub.supply.fatal && allChans.all fun c => started (s.chan c) && !frozen (s.chan c)

/-- Time passes at the present condition. (DESIGN CHOICE, log 90) -/
def countAvail (ms : BitVec 64) (up : Bool) (h : Hub) : Hub :=
  if h.planned then { h with availPlan := h.availPlan + ms }
  else if up then { h with availUp := h.availUp + ms }
  else { h with availDown := h.availDown + ms }

/-- AVAIL_RECORD_WRITE: `ms` milliseconds have passed, and the counts go to the record area (R407). -/
def execAvailRecordWrite (ms : BitVec 64) (s : State) : Host.Outcome State Fault Refusal :=
  if managed s.hub then
    let up := moduleUp s
    .next ((passTime (ms.toNat * 1000000) s).onHubOne fun h => saveRecord (countAvail ms up h))
  else .next s

/-- A temperature crosses the threshold, in either direction. (DEDUCED, log 91) -/
def crossed (threshold old new : Word) : Bool := threshold.sle old != threshold.sle new

/-- TELEMETRY_THRESHOLD: a channel temperature is sampled, and vector 2 of PF0 is sent when it crosses the threshold.
(DEDUCED, log 91) -/
def execTelemetryThreshold (c : Ch) (temp : Word) (s : State) : Host.Outcome State Fault Refusal :=
  if managed s.hub then
    onHub (fun h =>
      let x := crossed h.telemetry.threshold h.telemetry.temp[c.val] temp
      let h := { h with telemetry := { h.telemetry with temp := h.telemetry.temp.set c.val temp } }
      if x then { h with pf0 := sendVec h.pf0 2 } else h) s
  else .next s

/-! ### Capture (R408, R409) -/

/-- CAP_CTL_ARM. -/
def execCapCtlArm (c : Ch) (s : State) : Host.Outcome State Fault Refusal :=
  onChan c (whileClocked fun ch => if capWritable ch then armCapture ch else ch) s

/-- CAP_CTL_CANCEL. -/
def execCapCtlCancel (c : Ch) (s : State) : Host.Outcome State Fault Refusal := onChan c (whileClocked cancelCapture) s

/-- The capture edge: the shadow cells are filled, and capture-and-freeze stops the clocks. -/
def captureEdge (ch : Chan) : Chan :=
  if memoriesClocked ch && captureDue ch then
    takeCapture ch
  else ch

/-- CAPTURE_EDGE (R408). -/
def execCaptureEdge (c : Ch) (s : State) : Host.Outcome State Fault Refusal := onChan c captureEdge s

/-- The release of a capture-and-freeze: the array takes a trap with cause CAPTURE at the capture boundary, and CAP_STAT
reads TAKEN, since the shadow cells stay (DEDUCED, log 95). A higher cause that has stopped the op there has made that trap
already (R97). With no op at that boundary issue stops with the cause. -/
def releaseFreeze (ch : Chan) : Chan :=
  let ch := { ch with err := { ch.err with capState := 2 } }
  if ch.trap.drain.isSome then ch
  else
    match ch.seq.cur with
    | some x => boundaryStop 10 ch x
    | none => raiseArray (setStop ch 10 0 0) 10

end Sys2Proof.Machine
end

