-- ==== Sys2Proof/Machine/Pf0.lean ====
section
/-! DEFINITION. BAR0 of PF0, and the BAR0 register and MSI-X rows of every function (R345, R346, R351, R401, R407; the
register cards of 13 to 16). -/

namespace Sys2Proof.Machine

/-! ### Module registers -/

/-- BOOT_STAT (14, Registers). -/
def bootStat (b : Boot) : Word :=
  bitAt (decide (b.slot = some true)) 0 ||| bitAt b.recovery 1 ||| fldAt b.step 2 ||| fldAt b.fail.toNat 6
    ||| fldAt b.read.mhz.toNat 16

/-- LC_STAT (14, Registers). -/
def lcStat (h : Hub) : Word :=
  fldAt (lcState h.fuses) 0 ||| fldAt h.dap.level.toNat 3 ||| fldAt h.cask.pwFail 5

/-- FLOOR_STAT (14, Registers). -/
def floorStat (f : Fuses) : Word := (floorOf f).setWidth 32 ||| fldAt f.floor.length 16

/-- A mask of the channels that meet a condition. -/
def chanMask (s : State) (p : Chan → Bool) : Word :=
  allChans.foldl (fun acc c => acc ||| bitAt (p (s.chan c)) c.val) 0

/-- FENCE_STAT (15, Registers). -/
def fenceStat (s : State) : Word :=
  chanMask s (fun ch => decide (ch.cstate = .fenced)) ||| fldAt (s.hub.held ||| s.hub.heldStart ||| s.hub.heldTrain).toNat 16

/-- MOD_PWR_CTL (16, Registers). -/
def modPwrCtl (s : State) : Word :=
  chanMask s (fun ch => decide (ch.cstate = .doze) || dozeAsked ch) ||| bitAt s.hub.supply.auxOnly 16

/-- A module register; unassigned dwords read 0. -/
def modReg (s : State) (off : Nat) : Word :=
  let h := s.hub
  if off = 0x00 then h.ready.setWidth 32 ||| bitAt h.supply.fatal 16
  else if off = 0x10 then bootStat h.boot
  else if off = 0x14 then lcStat h
  else if off = 0x18 then floorStat h.fuses
  else if off = 0x1C then h.tamper.setWidth 32
  else if off = 0x20 then h.log.head
  else if off = 0x24 then fenceStat s
  else if off = 0x28 then bitAt h.planned 0
  else if off = 0x30 then h.availUp.setWidth 32
  else if off = 0x34 then h.latchUp
  else if off = 0x38 then h.availDown.setWidth 32
  else if off = 0x3C then h.latchDown
  else if off = 0x40 then h.availPlan.setWidth 32
  else if off = 0x44 then h.latchPlan
  else if off = 0x50 then modPwrCtl s
  else 0

/-- A telemetry dword, the offset counted from 0x2000 (15, Registers). -/
def telemetryReg (t : Telemetry) (off : Nat) : Word :=
  let n := off / 0x40
  if off < 0x400 then
    match off % 0x40 with
    | 0x00 => t.temp.toList.getD n 0
    | 0x04 => t.power.toList.getD n 0
    | 0x08 => t.ce.toList.getD n 0
    | 0x0C => t.ucc.toList.getD n 0
    | 0x10 => t.fences.toList.getD n 0
    | _ => 0
  else if off = 0x400 then t.mv48
  else if off = 0x404 then t.ma48
  else if off = 0x408 then t.mv12
  else if off = 0x40C then t.hubTemp
  else if off = 0x480 then t.threshold
  else 0

/-- A dword of the error log, the offset counted from 0x1000 (R401). -/
def logReg (l : ErrLog) (off : Nat) : Word :=
  (l.ring.toList.getD (off / 16) 0).extractLsb' (32 * (off / 4 % 4)) 32

/-- A dword of PF0's BAR0 (R345). -/
def pf0Word (s : State) (off : Nat) : Word :=
  if off < 0x100 then modReg s off
  else if 0x1000 ≤ off ∧ off < 0x2000 then logReg s.hub.log (off - 0x1000)
  else if 0x2000 ≤ off ∧ off < 0x3000 then telemetryReg s.hub.telemetry (off - 0x2000)
  else if 0x4000 ≤ off ∧ off < 0x4040 then tableWord s.hub.pf0 ((off - 0x4000) / 4)
  else if 0x4800 ≤ off ∧ off < 0x4808 then pbaWord s.hub.pf0 ((off - 0x4800) / 4)
  else 0

/-- A read of the lower half of an availability count latches its upper half (R94, R407). -/
def pf0Latch (off : Nat) (h : Hub) : Hub :=
  if off = 0x30 then { h with latchUp := h.availUp.extractLsb' 32 32 }
  else if off = 0x38 then { h with latchDown := h.availDown.extractLsb' 32 32 }
  else if off = 0x40 then { h with latchPlan := h.availPlan.extractLsb' 32 32 }
  else h

/-- One dword read of PF0, after those before it. -/
def pf0ReadOne (off : Nat) (r : List Byte × State) (k : Nat) : List Byte × State :=
  let o := off / 4 * 4 + 4 * k
  (r.1 ++ natBytes 4 (pf0Word r.2 o).toNat, r.2.onHubOne (pf0Latch o))

/-- MOD_PWR_CTL: each DOZE bit requests DOZE of its channel or wakes it, and AUX_ONLY (R417, R418, R420). -/
def writeModPwr (v : Word) (s : State) : State :=
  let s := allChans.foldl (fun s c =>
    s.onAll (pairOf s c) (if bit v c.val then askDoze else dozeWake (bypassOpen s.hub) 1)) s
  writeAuxOnly (bit v 16) s

/-- One dword write of PF0. -/
def pf0Write (s : State) (off : Nat) (v : Word) : State :=
  if off = 0x28 then s.onHubOne fun h => { h with planned := bit v 0 }
  else if off = 0x50 then writeModPwr v s
  else if off = 0x2480 then s.onHubOne fun h => { h with telemetry := { h.telemetry with threshold := v } }
  else if 0x4000 ≤ off ∧ off < 0x4040 then
    s.onHubOne fun h => { h with pf0 := setTableCell ((off - 0x4000) / 16) ((off - 0x4000) / 4 % 4) v h.pf0 }
  else s

/-! ### The rows -/

/-- HOST_BAR0_REGISTER_READ: `count` dwords from a BAR0 offset (R346). -/
def execHostBar0RegisterRead (f : Fin 17) (off count : Nat) (s : State) : Host.Outcome State Fault Refusal :=
  if linkUp s.hub = false then .next s
  else
    match fnChan f with
    | some c => .next (chanPageRead c off count s)
    | none =>
      if decodes s.hub.pf0 then
        let r := (List.range count).foldl (pf0ReadOne off) ([], s)
        .next (answer f (.data r.1 false) r.2)
      else .next (answer f .unsupported (noteUr f s))

/-- HOST_BAR0_REGISTER_WRITE (R346). Queue registers with their offset in `met` meet an OUT in the same cycle (R269). -/
def execHostBar0RegisterWrite (f : Fin 17) (off : Nat) (data : List Dword) (met : List Nat) (s : State) :
    Host.Outcome State Fault Refusal :=
  if linkUp s.hub = false then .next s
  else
    match fnChan f with
    | some c => .next (chanPageWrite c off data met s)
    | none =>
      if decodes s.hub.pf0 then .next ((wholeDwords off data).foldl (fun s p => pf0Write s p.1 p.2) s)
      else .next (noteUr f s)

/-- MSIX_TABLE_WRITE: one cell of a table entry (R351). -/
def execMsixTableWrite (f : Fin 17) (vec : Nat) (cell : Fin 4) (v : Word) (s : State) :
    Host.Outcome State Fault Refusal :=
  if vec < vectorsOf f then
    execHostBar0RegisterWrite f (0x4000 + 16 * vec + 4 * cell.val) [{ value := v, enables := 15 }] [] s
  else .next s

/-- MSIX_UNMASK: the vector control of an entry is written 0, and a pending message is sent (R351). -/
def execMsixUnmask (f : Fin 17) (vec : Nat) (s : State) : Host.Outcome State Fault Refusal :=
  if vec < vectorsOf f then
    execHostBar0RegisterWrite f (0x4000 + 16 * vec + 12) [{ value := 0, enables := 15 }] [] s
  else .next s

end Sys2Proof.Machine
end

