-- ==== Sys2Proof/Machine/Debug.lean ====
section
/-! DEFINITION. The debug access port: the TAP, its mailbox and the debug commands (R381 to R386, R409, R421). -/

namespace Sys2Proof.Machine

/-! ### The TAP (R383) -/

/-- Change the debug port. -/
def onDap (f : Dap → Dap) (h : Hub) : Hub := { h with dap := f h.dap }

/-- IDCODE. -/
def idcodeWord : Word := Config.siliconRev ++ 0xA024#16 ++ Config.makerCode ++ 1#1

/-- A boundary-scan instruction is selected: what its register captures lies outside the spec (a free value). At level 0 it
acts as BYPASS, which captures 0. (PRESUMED, log 8) -/
def boundaryScan (code : Byte) (s : State) : State :=
  if s.hub.supply.aux = false then s
  else if s.hub.dap.level = 0 then s.onHubOne (onDap fun d => { d with ir := code, out := 0 })
  else
    s.onHubOne fun h =>
      onDap (fun d => { d with ir := code, out := (Config.freeWord h.nonces).setWidth 33 }) { h with nonces := h.nonces + 1 }

/-- EXTEST (R383). -/
def execExtest (s : State) : Host.Outcome State Fault Refusal := .next (boundaryScan 0x00 s)

/-- SAMPLE_PRELOAD (R383). -/
def execSamplePreload (s : State) : Host.Outcome State Fault Refusal := .next (boundaryScan 0x01 s)

/-- INTEST (R383). -/
def execIntest (s : State) : Host.Outcome State Fault Refusal := .next (boundaryScan 0x03 s)

/-- A register that is served at every level is selected, and captures a value. -/
def tapCapture (code : Byte) (f : Hub → BitVec 33) (s : State) : State :=
  if s.hub.supply.aux then s.onHubOne fun h => onDap (fun d => { d with ir := code, out := f h }) h else s

/-- IDCODE (R383). -/
def execIdcode (s : State) : Host.Outcome State Fault Refusal :=
  .next (tapCapture 0x02 (fun _ => idcodeWord.setWidth 33) s)

/-- BYPASS (R383). -/
def execTapBypass (s : State) : Host.Outcome State Fault Refusal := .next (tapCapture 0xFF (fun _ => 0) s)

/-- DAP_STATUS as a word. -/
def dapStatusWord (d : Dap) : Word :=
  fldAt d.level.toNat 0 ||| bitAt d.busy 2 ||| fldAt d.result.toNat 3 ||| fldAt d.resp.length 16

/-- DAP_STATUS (R383). -/
def execDapStatus (s : State) : Host.Outcome State Fault Refusal :=
  .next (tapCapture 0x42 (fun h => (dapStatusWord h.dap).setWidth 33) s)

/-! ### The mailbox (R384, R385) -/

/-- A command code that R385 lists. -/
def dapKnown (code : Nat) : Bool := decide (code ∈ [1, 2, 3, 4, 5]) || decide (0x10 ≤ code ∧ code ≤ 0x16) || decide (code ≥ 0x80)

/-- A command that has its data starts: BUSY, or at once FORMAT for an unknown code. -/
def dapStart (d : Dap) : Dap :=
  if dapKnown (fld d.cmd 0 8) then { d with busy := true } else { d with result := 6 }

/-- A command word: it discards unread response words and an incomplete command, and is ignored while BUSY. -/
def takeCmd (w : Word) (d : Dap) : Dap :=
  if d.busy then d
  else
    let d := { d with cmd := w, words := fld w 16 16, data := [], resp := [] }
    if d.words = 0 then dapStart d else d

/-- DAP_CMD (R384). -/
def execDapCmd (w : Word) (s : State) : Host.Outcome State Fault Refusal :=
  let s := tapCapture 0x40 (fun _ => 0) s
  if managed s.hub then .next (s.onHubOne (onDap (takeCmd w))) else .next s

/-- What DAP_DATA captures: the next unread response word. -/
def dapNext (d : Dap) : BitVec 33 :=
  match d.resp with
  | w :: _ => 1#1 ++ w
  | [] => 0

/-- A word shifted into DAP_DATA: a data word, or, with VALID 0, the end of reading a response word. -/
def takeData33 (w : Word) (valid : Bool) (d : Dap) : Dap :=
  if valid then
    if d.busy ∨ d.words = 0 then d
    else
      let d := { d with data := d.data ++ [w], words := d.words - 1 }
      if d.words = 0 then dapStart d else d
  else { d with resp := d.resp.drop 1 }

/-- DAP_DATA (R384). -/
def execDapData (w : Word) (valid : Bool) (s : State) : Host.Outcome State Fault Refusal :=
  let s := tapCapture 0x41 (fun h => dapNext h.dap) s
  if managed s.hub then .next (s.onHubOne (onDap (takeData33 w valid))) else .next s

/-! ### Executing a command -/

/-- ARG and LEN of the command. -/
def dapArg (h : Hub) : Nat := fld h.dap.cmd 8 8
def dapLen (h : Hub) : Nat := fld h.dap.cmd 16 16

/-- Data word `k`. -/
def dapWord (h : Hub) (k : Nat) : Word := h.dap.data.getD k 0

/-- The data words as bytes. -/
def dapBytes (h : Hub) : List Byte := h.dap.data.flatMap fun w => natBytes 4 w.toNat

/-- The command finishes with a result and response words. (DEDUCED, log 97) -/
def dapEnd (result : BitVec 4) (resp : List Word) (s : State) : State :=
  s.onHubOne (onDap fun d => { d with busy := false, asked := false, result := result, resp := resp, data := [] })

/-- The Maltster executes the command with a code, if it is the one that is BUSY. -/
def dapRow (code : Nat) (f : State → State) (s : State) : Host.Outcome State Fault Refusal :=
  if managed s.hub && s.hub.dap.busy && decide (fld s.hub.dap.cmd 0 8 = code) then .next (f s) else .next s

/-- A command on a channel that needs level OWNER: LEVEL, then FORMAT, then STATE where a condition of the channel does not
hold. -/
def dapChan (len : Nat) (ok : Hub → Chan → Bool) (f : Ch → State → State) (s : State) : State :=
  if s.hub.dap.level = 0 then dapEnd 4 [] s
  else if h : dapArg s.hub < 16 then
    let c : Ch := ⟨dapArg s.hub, h⟩
    if dapLen s.hub ≠ len then dapEnd 6 [] s
    else if ok s.hub (s.chan c) then f c s
    else dapEnd 5 [] s
  else dapEnd 6 [] s

/-- The debug port opens at a level, which is logged (R381, R382, R390). (DEDUCED, log 99) -/
def openDebug (level : BitVec 2) (h : Hub) : Hub :=
  logEvent { h with dap := { h.dap with level := level }, cask := { h.cask with unlocked := true } } 0x3D 0
    (level.setWidth 32)

/-- The stored hash accepts a password (R381). -/
def passwordOk (h : Hub) (pw : List Byte) : Bool :=
  match h.cask.owner.bind (·.password) with
  | none => false
  | some p => decide (Config.sha384 (p.salt ++ pw) = p.hash)

/-- PW_UNLOCK: ARG and LEN, the life-cycle state, the failure count, and the password (R381). (DEDUCED, log 97) -/
def pwUnlock (s : State) : State :=
  let n := dapArg s.hub
  if n = 0 ∨ n > 64 ∨ dapLen s.hub ≠ (n + 3) / 4 then dapEnd 6 [] s
  else if lcState s.hub.fuses ≠ 2 then dapEnd 5 [] s
  else if s.hub.cask.pwFail ≥ 8 then dapEnd 2 [] s
  else if passwordOk s.hub ((dapBytes s.hub).take n) then (dapEnd 0 [] s).onHubOne (openDebug 1)
  else (dapEnd 1 [] s).onHubOne fun h => { h with cask := { h.cask with pwFail := h.cask.pwFail + 1 } }

/-- PW_UNLOCK (R381). -/
def execPwUnlock (s : State) : Host.Outcome State Fault Refusal := dapRow 0x01 pwUnlock s

/-- The challenge record of R382. -/
def challengeRecord (k : UnlockChallenge) : List Byte :=
  digestBytes k.nonce ++ natBytes 8 Config.serial.toNat ++ [BitVec.ofNat 8 k.state, k.level.setWidth 8]
    ++ natBytes 2 k.floor.toNat ++ List.replicate 36 0

/-- Bytes packed into words, the first byte in bits 7 to 0. -/
def packWords : Nat → List Byte → List Word
  | 0, _ => []
  | n + 1, bs => BitVec.ofNat 32 (bytesNat (bs.take 4)) :: packWords n (bs.drop 4)

/-- A new challenge, which discards the previous one (R382). -/
def newChallenge (level : BitVec 2) (h : Hub) : UnlockChallenge :=
  { nonce := Config.nonce h.nonces, state := lcState h.fuses, level := level, floor := floorOf h.fuses
    issued := h.timebase.count, used := false }

/-- GET_CHALLENGE: OWNER in DEPLOYED only, VENDOR in PROVISIONED, DEPLOYED and RETURNED. -/
def getChallenge (s : State) : State :=
  let h := s.hub
  let st := lcState h.fuses
  let n := dapArg h
  if (n ≠ 1 ∧ n ≠ 2) ∨ dapLen h ≠ 0 then dapEnd 6 [] s
  else if (n = 1 ∧ st ≠ 2) ∨ (n = 2 ∧ (st = 0 ∨ st = 4)) then dapEnd 5 [] s
  else
    let k := newChallenge (BitVec.ofNat 2 n) h
    (dapEnd 0 (packWords 24 (challengeRecord k)) s).onHubOne fun h =>
      { h with cask := { h.cask with challenge := some k }, nonces := h.nonces + 1 }

/-- GET_CHALLENGE (R382). -/
def execGetChallenge (s : State) : Host.Outcome State Fault Refusal := dapRow 0x02 getChallenge s

/-- 60 s of TIMEBASE. -/
def within60 (h : Hub) (issued : BitVec 64) : Bool := decide ((h.timebase.count - issued).toNat ≤ 60 * 10 ^ 9)

/-- The public key that a level's signature is checked with: the owner's, or Obsum's. -/
def unlockKey (h : Hub) (level : BitVec 2) : Option (BitVec 384) :=
  if level = 1 then h.cask.owner.map (·.ownerKey) else h.fuses.obsumDigest

/-- A signature verifies under a key. -/
def signed (key : Option (BitVec 384)) (digest : BitVec 384) (sig : List Byte) : Bool :=
  match key with
  | none => false
  | some d => Config.sigValid d digest sig

/-- CR_RESPONSE: a challenge may be used once, within 60 s (R382). -/
def crResponse (s : State) : State :=
  if dapArg s.hub ≠ 0 ∨ dapLen s.hub ≠ 24 then dapEnd 6 [] s
  else
    match s.hub.cask.challenge with
    | none => dapEnd 3 [] s
    | some k =>
      if k.used ∨ within60 s.hub k.issued = false then dapEnd 3 [] s
      else
        let ok := signed (unlockKey s.hub k.level) (Config.sha384 (challengeRecord k)) (dapBytes s.hub)
        let s := s.onHubOne fun h => { h with cask := { h.cask with challenge := some { k with used := true } } }
        if ok then (dapEnd 0 [] s).onHubOne (openDebug k.level) else dapEnd 1 [] s

/-- CR_RESPONSE (R382). -/
def execCrResponse (s : State) : Host.Outcome State Fault Refusal := dapRow 0x03 crResponse s

/-- DBG_CLOSE: no effect in BLANK. -/
def dbgClose (s : State) : State :=
  if dapArg s.hub ≠ 0 ∨ dapLen s.hub ≠ 0 then dapEnd 6 [] s
  else
    (dapEnd 0 [] s).onHubOne fun h =>
      if lcState h.fuses = 0 then h else { h with dap := { h.dap with level := 0 } }

/-- DBG_CLOSE (R385). -/
def execDbgClose (s : State) : Host.Outcome State Fault Refusal := dapRow 0x04 dbgClose s

/-- The fuses that PROVISION programs: device secret, digest of the Obsum key, Obsum key-encryption key. -/
def provisionFuses (bs : List Byte) (f : Fuses) : Fuses :=
  { f with
    deviceSecret := some (BitVec.ofNat 256 (bytesNat (bs.take 32)))
    obsumDigest := some (BitVec.ofNat 384 (bytesNat ((bs.drop 32).take 48).reverse))
    obsumKek := some (BitVec.ofNat 256 (bytesNat ((bs.drop 80).take 32))) }

/-- PROVISION: the transition from BLANK to PROVISIONED (R376). -/
def provision (s : State) : State :=
  if dapArg s.hub ≠ 0 ∨ dapLen s.hub ≠ 28 then dapEnd 6 [] s
  else if lcState s.hub.fuses ≠ 0 then dapEnd 5 [] s
  else
    let bs := dapBytes s.hub
    transition 1 none ((dapEnd 0 [] s).onHubOne fun h => { h with fuses := provisionFuses bs h.fuses })

/-- PROVISION (R385). -/
def execProvision (s : State) : Host.Outcome State Fault Refusal := dapRow 0x05 provision s

/-! ### Channel commands -/

/-- The channel's registers can be read: its logic has power. (DEDUCED, log 98) -/
def regReadable (h : Hub) (ch : Chan) : Bool := h.supply.rails && decide (ch.cstate ≠ .doze)

/-- They can be written: its clocks run too. (DEDUCED, log 98) -/
def regWritable (h : Hub) (ch : Chan) : Bool :=
  h.supply.rails && decide (ch.cstate = .run ∨ ch.cstate = .idle ∨ ch.cstate = .fenced) && !frozen ch

/-- REG_READ: as IN does; an address that the map does not assign is a FORMAT error. -/
def regRead (c : Ch) (s : State) : State :=
  let a := (dapWord s.hub 0).toNat
  match if a < 0x10000 then ioRead s.hub (s.chan c) a else none with
  | none => dapEnd 6 [] s
  | some v => dapEnd 0 [v] (s.onOne c (ioLatch s.hub a))

/-- REG_READ (R385). -/
def execRegRead (s : State) : Host.Outcome State Fault Refusal := dapRow 0x10 (dapChan 1 regReadable regRead) s

/-- The write of REG_WRITE: as OUT does. One that asks for DOZE is a management request (R417). (DEDUCED, log 99) -/
def regPut (h : Hub) (a : Nat) (v : Word) (ch : Chan) : Option Chan :=
  if isStackPtr a then
    match writeStackPtr a v ch with
    | .ok ch => some ch
    | .error _ => none
  else if asksDoze a v then
    some { ch with pwr := { ch.pwr with autoIdle := bit v 0, tbWake := bit v 2, reqHost := true } }
  else some (ioWrite h a v ch)

/-- REG_WRITE: the command stays BUSY where an OUT would stall, and after it has asked for DOZE. A stack pointer write whose
spill would fault is refused with STATE. -/
def regWrite (c : Ch) (s : State) : State :=
  let a := (dapWord s.hub 0).toNat
  let v := dapWord s.hub 1
  let ch := s.chan c
  if a ≥ 0x10000 ∨ ioAssigned s.hub ch a = false then dapEnd 6 [] s
  else if outBlocked ch a v then s
  else
    match regPut s.hub a v ch with
    | none => dapEnd 5 [] s
    | some ch =>
      let s := shareWake c s (s.setChan c ch)
      if asksDoze a v then s.onHubOne (onDap fun d => { d with asked := true }) else dapEnd 0 [] s

/-- A REG_WRITE that asked for DOZE ends when the channel has left DOZE, or the request was cancelled (R417, R419). -/
def dozeServed (s : State) : State :=
  let c : Ch := Fin.ofNat 16 (dapArg s.hub)
  if (s.chan c).cstate = .doze ∨ (s.chan c).pwr.reqHost then s else dapEnd 0 [] s

/-- REG_WRITE (R385). -/
def execRegWrite (s : State) : Host.Outcome State Fault Refusal :=
  dapRow 0x11 (fun s => if s.hub.dap.asked then dozeServed s else dapChan 2 regWritable regWrite s) s

/-! ### MEM_READ (R386) -/

/-- The words of a region; none where there is no such region. -/
def regionSize (r : Nat) : Option Nat :=
  match r with
  | 0 => some (Config.shadowSize 0)
  | 1 => some (Config.shadowSize 1)
  | 2 => some 131072
  | 3 => some (Config.shadowSize 3)
  | 4 => some (0x1200 * 128)
  | 8 => some (imemSize / 4)
  | 9 => some (dmemSize / 4)
  | 10 => some (4096 * 32768)
  | 11 => some (bar2Size / 4)
  | _ => none

/-- A word lies in a region; region 4 has only the frames of the Mill. -/
def inRegion (r off : Nat) : Bool :=
  match regionSize r with
  | none => false
  | some n => decide (off < n) && (decide (r ≠ 4) || frameKnown (off / 128))

/-- The condition of a region holds. -/
def regionOpen (r : Nat) (ch : Chan) : Bool :=
  if r ≤ 4 then decide (ch.err.capState = 2 ∨ ch.err.capState = 3) else frozen ch || decide (ch.cstate = .fenced)

/-- A word of a sheet. -/
def sheetWord (x : Sheet) (k : Nat) : Word := x.extractLsb' (32 * k) 32

/-- A word of the block RAM frame at a frame address. -/
def ramWord (m : Mill) (off : Nat) : Word :=
  let a := off / 128 - 0x1000
  (sparseGet 0 m.ram (1024 * (a / 8) + 128 * (a % 8) + off % 128)).setWidth 32

/-- A shadow word. -/
def shadowRead (sh : Shadow) (m : Mill) (r off : Nat) : Word :=
  if r = 2 then
    match off / 32768 with
    | 0 => sheetWord sh.arr.c (off % 32768)
    | 1 => sheetWord sh.arr.m (off % 32768)
    | 2 => sheetWord sh.arr.x (off % 32768)
    | _ => sheetWord sh.arr.t (off % 32768)
  else if r = 4 ∧ off / 128 ≥ 0x1000 then ramWord m off
  else Config.shadowWord sh r off

/-- A word of a region, and whether it is uncorrectable: its raw data bits are then a free value, which `rawWord` gives. -/
def regionWord (ch : Chan) (r off : Nat) : Word × Bool :=
  match r with
  | 8 => (memWord ch.mem.imem (4 * off), markUe ch.mem.imarks off)
  | 9 => (memWord ch.mem.dmem (4 * off), markUe ch.mem.dmarks off)
  | 10 =>
    (sheetWord (planeOf ch (off / 32768)) (off % 32768), decide (off % 32768 / 2 ∈ planeUes ch (off / 32768)))
  | 11 => (memWord ch.hbm.bytes (4 * off), hbmUe ch (off / 8))
  | _ =>
    match ch.shadow with
    | none => (0, false)
    | some sh => (shadowRead sh ch.mill r off, false)

/-- Word `k` of a response: the raw data bits of an uncorrectable word, which the upset left open, are a free value (R386).
(DESIGN CHOICE, log 12) -/
def rawWord (seed : Nat) (p : (Word × Bool) × Nat) : Word := if p.1.2 then Config.freeWord (seed + p.2) else p.1.1

/-- MEM_READ. -/
def memReadCmd (c : Ch) (s : State) : State :=
  let r := (dapWord s.hub 0).toNat
  let off := (dapWord s.hub 1).toNat
  let n := (dapWord s.hub 2).toNat
  let ch := s.chan c
  if n = 0 ∨ n > 1024 ∨ regionSize r = none then dapEnd 6 [] s
  else if regionOpen r ch = false then dapEnd 5 [] s
  else if (List.range n).all (fun k => inRegion r (off + k)) = false then dapEnd 6 [] s
  else
    let ws := (List.range n).map fun k => regionWord ch r (off + k)
    dapEnd (if ws.any (·.2) then 8 else 0) (ws.zipIdx.map (rawWord ch.free))
      (s.onOne c fun ch => { ch with free := ch.free + n })

/-- The memories of a channel can be read by the Maltster. -/
def memReadable (h : Hub) (_ch : Chan) : Bool := h.supply.rails

/-- MEM_READ (R386). -/
def execMemRead (s : State) : Host.Outcome State Fault Refusal := dapRow 0x12 (dapChan 3 memReadable memReadCmd) s

/-- FREEZE_RELEASE (R409). -/
def execFreezeRelease (s : State) : Host.Outcome State Fault Refusal :=
  dapRow 0x13 (dapChan 0 (fun _ ch => frozen ch) fun c s => dapEnd 0 [] (s.onOne c releaseFreeze)) s

/-- CH_RESET (R385, R421). -/
def execChReset (s : State) : Host.Outcome State Fault Refusal :=
  dapRow 0x14 (dapChan 0 (fun h _ => restartable h) fun c s => dapEnd 0 [] (restartChannel true c s)) s

/-- The channel's controller works. -/
def ctlAlive (_h : Hub) (ch : Chan) : Bool := started ch && !frozen ch

/-- BREAK: cause DEBUG at the controller's next boundary (R193, R385). -/
def execDbgBreak (s : State) : Host.Outcome State Fault Refusal :=
  dapRow 0x15 (dapChan 0 ctlAlive fun c s =>
    dapEnd 0 [] (s.onOne c fun ch => { ch with ev := { ch.ev with brkDebug := true } })) s

/-- STEP: cause STEP after the next instruction completes (R385). -/
def execDbgStep (s : State) : Host.Outcome State Fault Refusal :=
  dapRow 0x16 (dapChan 0 ctlAlive fun c s =>
    dapEnd 0 [] (s.onOne c fun ch => { ch with ev := { ch.ev with stepArmed := true } })) s

/-- A command of Obsum's internal test access is served: it finishes under R384. Its result, the number of its response words
and the words are free values; what else it does the spec does not say. (DESIGN CHOICE, log 109) -/
def testServed (s : State) : State :=
  let k := s.hub.nonces
  let n := (Config.freeWord (k + 1)).toNat % 65536
  dapEnd ((Config.freeWord k).setWidth 4) ((List.range n).map fun i => Config.freeWord (k + 2 + i))
    (s.onHubOne fun h => { h with nonces := h.nonces + 2 + n })

/-- VENDOR_TEST_COMMAND: commands 0x80 to 0xFF are served at VENDOR level only, and end with RESULT LEVEL at a lower one
(R385). -/
def execVendorTestCommand (s : State) : Host.Outcome State Fault Refusal :=
  if managed s.hub && s.hub.dap.busy && decide (fld s.hub.dap.cmd 0 8 ≥ 0x80) then
    .next (if s.hub.dap.level.toNat ≥ 2 then testServed s else dapEnd 4 [] s)
  else .next s

end Sys2Proof.Machine
end

