-- ==== Sys2Proof/Machine/Mgmt.lean ====
section
/-! DEFINITION. The Maltster's services over MCTP, and the flash service contacts (R106, R363, R372, R376, R377, R387 to R389,
R435). -/

namespace Sys2Proof.Machine

/-! ### Who answers -/

/-- The last answer. -/
def reply (r : Reply) (h : Hub) : Hub := { h with services := { h.services with reply := some r } }

/-- The answer of a command on the machine. -/
def State.reply (r : Reply) (s : State) : State := s.onHubOne (Machine.reply r)

/-- Kiln has ended, so PLDM firmware update is offered, by the ROM recovery service too (R362). (DEDUCED, log 100) -/
def updatable (h : Hub) : Bool := h.supply.aux && decide (h.boot.step ≥ 3)

/-- The Maltster firmware runs, and offers every service. -/
def firmware (h : Hub) : Bool := updatable h && !h.boot.recovery

/-- A service that is offered under a condition of the hub, and otherwise does not answer. -/
def service (ok : Hub → Bool) (f : State → State) (s : State) : Host.Outcome State Fault Refusal :=
  if ok s.hub then .next (f s) else .next s

/-- An answer whose bytes a standard fixes. -/
def standard (name : String) (ns : List Nat) : Reply := .bytes (Config.standardAnswer name ns)

/-! ### MCTP and PLDM (R387, R388) -/

/-- MCTP_CONTROL: the bus owner assigns the endpoint ID. -/
def execMctpControl (eid : Byte) (s : State) : Host.Outcome State Fault Refusal :=
  service managed (fun s => (s.onHubOne fun h => { h with services := { h.services with eid := eid } }).reply
    (standard "MCTP_CONTROL" [eid.toNat])) s

/-- A PLDM base or Type 2 request: sensor `n` is the telemetry dword `n` (15, Registers). (DESIGN CHOICE, log 103) -/
def pldm (req : PldmReq) (s : State) : State :=
  match req with
  | .base => s.reply (standard "PLDM_BASE" [])
  | .sensor n => s.reply (.bytes (natBytes 4 (telemetryReg s.hub.telemetry (4 * n)).toNat))
  | .eventReceiver on =>
    (s.onHubOne fun h => { h with services := { h.services with receiver := on } }).reply .done

/-- PLDM_MONITORING (R387). -/
def execPldmMonitoring (req : PldmReq) (s : State) : Host.Outcome State Fault Refusal := service firmware (pldm req) s

/-- The bytes of a device below its record area (R365). -/
def recordBase : Nat := 0x1F00000

/-- An update has written the slot of a device. -/
def updating (h : Hub) (dev : Bool) : Bool := if dev then h.services.updating[1] else h.services.updating[0]

/-- Note whether an update has written the slot of a device. -/
def setUpdating (dev on : Bool) (h : Hub) : Hub :=
  { h with services := { h.services with
    updating := if dev then h.services.updating.set 1 on else h.services.updating.set 0 on } }

/-- An update write: the slot is marked EMPTY before the first one; the slot in use and the record area are refused. -/
def updateWrite (dev : Bool) (addr : Nat) (data : List Byte) (s : State) : State :=
  let h := s.hub
  if h.boot.slot = some dev ∨ addr + data.length > recordBase then s.reply .refused
  else
    let f := flashOf h dev
    let f := if updating h dev = false ∨ slotState f ≠ 0 then writeSlotState (Config.sfdp dev) 0 0 f else f
    let f := { f with bytes := flashPut (Config.sfdp dev) f.bytes addr data }
    (s.onHubOne fun h => setUpdating dev true (setFlash h dev fun _ => f)).reply .done

/-- PLDM_FIRMWARE_UPDATE (R388). -/
def execPldmFirmwareUpdate (dev : Bool) (addr : Nat) (data : List Byte) (s : State) :
    Host.Outcome State Fault Refusal := service updatable (updateWrite dev addr data) s

/-- The written slot becomes PENDING with the next SEQ. (DEDUCED, log 102) -/
def activate (dev : Bool) (s : State) : State :=
  let h := s.hub
  if h.boot.slot = some dev ∨ updating h dev = false then s.reply .refused
  else
    let seq := slotSeq (flashOf h (!dev)) + 1
    (s.onHubOne fun h =>
      let h := setFlash h dev fun f => writeHeader (Config.sfdp dev) seq.toNat 2 0 (slotCount f) f
      logEvent (setUpdating dev false h) 0x3E (slotUnit dev) seq).reply .done

/-- ACTIVATE_FIRMWARE (R388). -/
def execActivateFirmware (dev : Bool) (s : State) : Host.Outcome State Fault Refusal := service updatable (activate dev) s

/-! ### SPDM (R389) -/

/-- GET_VERSION: it starts a connection. -/
def execGetVersion (s : State) : Host.Outcome State Fault Refusal :=
  service managed (fun s =>
    (s.onHubOne fun h => { h with services := { h.services with spdm := 1, agreed := false } }).reply
      (standard "GET_VERSION" [])) s

/-- GET_CAPABILITIES, after GET_VERSION. -/
def execGetCapabilities (s : State) : Host.Outcome State Fault Refusal :=
  service managed (fun s =>
    if s.hub.services.spdm = 0 then s.reply .refused
    else (s.onHubOne fun h => { h with services := { h.services with spdm := 2 } }).reply
      (standard "GET_CAPABILITIES" [])) s

/-- NEGOTIATE_ALGORITHMS: P-384 and SHA-384 only. -/
def execNegotiateAlgorithms (p384 sha384 : Bool) (s : State) : Host.Outcome State Fault Refusal :=
  service managed (fun s =>
    if s.hub.services.spdm < 2 ∨ p384 = false ∨ sha384 = false then s.reply .refused
    else (s.onHubOne fun h => { h with services := { h.services with agreed := true } }).reply
      (standard "NEGOTIATE_ALGORITHMS" [])) s

/-- The device secret, where the attestation key is derived and the algorithms are agreed. -/
def attester (h : Hub) : Option (BitVec 256) :=
  if h.cask.attest && h.services.agreed then h.fuses.deviceSecret else none

/-- An answer that needs the attestation key. -/
def attested (f : BitVec 256 → List Byte) (s : State) : State :=
  match attester s.hub with
  | none => s.reply .refused
  | some k => s.reply (.bytes (f k))

/-- GET_DIGESTS. -/
def execGetDigests (s : State) : Host.Outcome State Fault Refusal :=
  service managed (attested fun k => digestBytes (Config.sha384 (Config.certChain k))) s

/-- GET_CERTIFICATE. -/
def execGetCertificate (s : State) : Host.Outcome State Fault Refusal := service managed (attested Config.certChain) s

/-- The digests of containers, one after the other. -/
def digestsOf (ks : List Container) : List Byte := ks.flatMap fun k => digestBytes k.digest

/-- Digests in ascending lowest TARGET bit. -/
def byTarget (ks : List Container) : List Container :=
  allChans.flatMap fun c => ks.filter fun k =>
    maskAt k.target c && (allChans.all fun d => !(decide (d.val < c.val) && maskAt k.target d))

/-- The one digest of a kind, or 48 zero bytes. -/
def oneDigest (ks : List Container) (kind : Half) : List Byte :=
  match (ofKind ks kind).head? with
  | none => List.replicate 48 0
  | some k => digestBytes k.digest

/-- Measurement `i`. -/
def measurement (h : Hub) (i : Nat) : Option (List Byte) :=
  let ks := h.boot.containers
  match i with
  | 1 => some (digestBytes Config.romDigest)
  | 2 => some (oneDigest ks 1)
  | 3 => some (digestBytes (Config.sha384 (digestsOf ((ofKind ks 2 ++ ofKind ks 3).foldr insertGen []))))
  | 4 => some (oneDigest ks 4)
  | 5 => some (digestsOf (byTarget (ofKind ks 5)))
  | 6 => some (digestsOf (byTarget (ofKind ks 6)))
  | 7 => some (oneDigest ks 7)
  | 8 =>
    some (BitVec.ofNat 8 (lcState h.fuses) :: natBytes 2 (floorOf h.fuses).toNat ++ natBytes 2 (ownerFloor h).toNat
      ++ natBytes 4 h.boot.seqNo.toNat)
  | 9 => some [h.dap.level.setWidth 8, if h.cask.unlocked then 1 else 0]
  | _ => none

/-- What GET_MEASUREMENTS asks for: the number of measurements with index 0, all of them with 255, or one.
(DESIGN CHOICE, log 103) -/
def measurements (h : Hub) (i : Nat) : Option (List Byte) :=
  if i = 0 then some [9]
  else if i = 255 then some ((List.range 9).flatMap fun k => (measurement h (k + 1)).getD [])
  else measurement h i

/-- GET_MEASUREMENTS. -/
def execGetMeasurements (index : Nat) (s : State) : Host.Outcome State Fault Refusal :=
  service managed (fun s =>
    match if s.hub.services.agreed then measurements s.hub index else none with
    | none => s.reply .refused
    | some bs => s.reply (.bytes bs)) s

/-- CHALLENGE: a signature by the attestation key over the nonce and the measurements. -/
def execChallenge (nonce : BitVec 256) (s : State) : Host.Outcome State Fault Refusal :=
  service managed (fun s => attested (fun k =>
    Config.attestSign k (natBytes 32 nonce.toNat ++ (measurements s.hub 255).getD [])) s) s

/-! ### Obsum commands (R389) -/

/-- A nonce that may still serve a command: it has served none, and is not older than 60 s. -/
def nonceLives (h : Hub) (n : Nonce) : Bool := !n.used && within60 h n.issued

/-- GET_NONCE: valid for one command and for 60 s; those given before stay valid for theirs. -/
def execGetNonce (s : State) : Host.Outcome State Fault Refusal :=
  service firmware (fun s =>
    let n := Config.nonce s.hub.nonces
    (s.onHubOne fun h => { h with
      services := { h.services with
        given := (h.services.given.filter (nonceLives h)) ++ [{ value := n, issued := h.timebase.count, used := false }] }
      nonces := h.nonces + 1 }).reply (.nonce n)) s

/-- The message that a signature covers: the command, the module serial and the nonce. -/
def signedBytes (name : String) (ns : List Nat) (a : Auth) : List Byte :=
  Config.standardAnswer name ns ++ natBytes 8 Config.serial.toNat ++ digestBytes a.nonce

/-- The nonce is one that GET_NONCE has given, not used, and not older than 60 s. (DEDUCED, log 101) -/
def nonceOk (h : Hub) (a : Auth) : Bool := h.services.given.any fun n => decide (n.value = a.nonce) && nonceLives h n

/-- A command is authorised by a key. -/
def authorised (h : Hub) (key : Option (BitVec 384)) (name : String) (ns : List Nat) (a : Auth) : Bool :=
  nonceOk h a && signed key (Config.sha384 (signedBytes name ns a)) a.sig

/-- The nonce has served its one command. (DEDUCED, log 101) -/
def useNonce (v : BitVec 384) (h : Hub) : Hub :=
  { h with services := { h.services with
    given := h.services.given.map fun n => if n.value = v then { n with used := true } else n } }

/-- A signed command: refused, with nothing changed, unless its authorisation holds. -/
def signedCmd (key : Hub → Option (BitVec 384)) (name : String) (ns : List Nat) (a : Auth) (f : State → State)
    (s : State) : Host.Outcome State Fault Refusal :=
  service firmware (fun s =>
    if authorised s.hub (key s.hub) name ns a then f (s.onHubOne (useNonce a.nonce)) else s.reply .refused) s

/-- Obsum's key and the owner's. -/
def obsumKey (h : Hub) : Option (BitVec 384) := h.fuses.obsumDigest
def ownerKeyOf (h : Hub) : Option (BitVec 384) := h.cask.owner.map (·.ownerKey)

/-- The owner's sealed record that ENROL leads to. -/
def sealedOf (ownerKey : BitVec 384) (m : OwnerMaterial) : Sealed where
  state := 2
  ownerKek := m.kek
  ownerKey := ownerKey
  floor := m.floor
  password := m.password.map fun p => { salt := p.1, hash := p.2 }

/-- ENROL may be given: in PROVISIONED, or again in DEPLOYED without a sealed record, with the key whose digest is fused
(R376, R377). -/
def enrolAllowed (h : Hub) (digest : BitVec 384) : Bool :=
  decide (lcState h.fuses = 1)
    || (decide (lcState h.fuses = 2) && decide ((recordNow h).sealedRec = none) && decide (h.fuses.ownerDigest = some digest))

/-- ENROL, authorised. -/
def enrol (msg : EnrolMsg) (s : State) : State :=
  let d := Config.sha384 msg.ownerKey
  match if s.hub.cask.attest then s.hub.fuses.deviceSecret.bind fun k => Config.openMaterial k msg.material else none with
  | none => s.reply .refused
  | some m =>
    if enrolAllowed s.hub d = false then s.reply .refused
    else if lcState s.hub.fuses = 2 then
      (startFromTwo (s.onHubOne fun h => writeRecord h (some (sealedOf d m)))).reply .done
    else
      (transition 2 (some (sealedOf d m))
        (s.onHubOne fun h => { h with fuses := { h.fuses with ownerDigest := some d } })).reply .done

/-- ENROL (R377). -/
def execEnrol (msg : EnrolMsg) (auth : Auth) (s : State) : Host.Outcome State Fault Refusal :=
  signedCmd obsumKey "ENROL" ((digestBytes (Config.sha384 msg.ownerKey) ++ msg.material).map (·.toNat)) auth (enrol msg) s

/-- Who signs a transition to a state; none where R376 allows none. -/
def transitionKey (target : Nat) (h : Hub) : Option (BitVec 384) :=
  match lcState h.fuses, target with
  | 1, 4 => obsumKey h
  | 2, 3 => ownerKeyOf h
  | 2, 4 => ownerKeyOf h
  | 3, 4 => obsumKey h
  | _, _ => none

/-- TRANSITION (R376). -/
def execTransition (target : Nat) (auth : Auth) (s : State) : Host.Outcome State Fault Refusal :=
  signedCmd (transitionKey target) "TRANSITION" [target] auth (fun s => (transition target none s).reply .done) s

/-- COMMIT_FLOOR, authorised: the three refusals, or the next step of the thermometer (R372). -/
def commitFloor (v : Half) (s : State) : State :=
  let h := s.hub
  let g := slotGens h.boot.containers
  if v.toNat ≤ (floorOf h.fuses).toNat then s.reply .notAbove
  else if v.toNat > g.1 ∨ v.toNat > g.2 then s.reply .wouldBrick
  else if h.fuses.floor.length ≥ 64 then s.reply .exhausted
  else
    (s.onHubOne fun h =>
      logEvent { h with fuses := { h.fuses with floor := v :: h.fuses.floor } } 0x3B 0 (v.setWidth 32)).reply .done

/-- COMMIT_FLOOR (R372). -/
def execCommitFloor (v : Half) (auth : Auth) (s : State) : Host.Outcome State Fault Refusal :=
  signedCmd obsumKey "COMMIT_FLOOR" [v.toNat] auth (commitFloor v) s

/-- The sealed record is written again with a change, in the Cask and in flash. -/
def reseal (f : Sealed → Sealed) (s : State) : State :=
  match s.hub.cask.owner with
  | none => s.reply .refused
  | some r =>
    (s.onHubOne fun h => writeRecord { h with cask := { h.cask with owner := some (f r) } } (some (f r))).reply .done

/-- SET_OWNER_FLOOR, authorised: under the rules of R372, against the owner containers of the slot in use.
(DEDUCED, log 102) -/
def setOwnerFloor (v : Half) (s : State) : State :=
  if v.toNat ≤ (ownerFloor s.hub).toNat then s.reply .notAbove
  else if s.hub.boot.containers.any fun k => ownKind k && decide (k.gen.toNat < v.toNat) then s.reply .wouldBrick
  else reseal (fun r => { r with floor := v }) s

/-- SET_OWNER_FLOOR (R389). -/
def execSetOwnerFloor (v : Half) (auth : Auth) (s : State) : Host.Outcome State Fault Refusal :=
  signedCmd ownerKeyOf "SET_OWNER_FLOOR" [v.toNat] auth (setOwnerFloor v) s

/-- SET_PASSWORD (R381, R389). -/
def execSetPassword (salt : List Byte) (hash : BitVec 384) (auth : Auth) (s : State) :
    Host.Outcome State Fault Refusal :=
  signedCmd ownerKeyOf "SET_PASSWORD" (hash.toNat :: salt.map (·.toNat)) auth
    (reseal fun r => { r with password := some { salt := salt, hash := hash } }) s

/-- SET_SPARGE, authorised: 500 µs to 1 s. -/
def setSparge (us : Word) (s : State) : State :=
  if us.toNat < 500 ∨ us.toNat > 1000000 then s.reply .refused
  else (s.onHubOne fun h => { h with services := { h.services with sparge := us } }).reply .done

/-- SET_SPARGE: signed by the owner, or by Obsum outside DEPLOYED (R389). -/
def execSetSparge (us : Word) (auth : Auth) (s : State) : Host.Outcome State Fault Refusal :=
  signedCmd (fun h => if lcState h.fuses = 2 then ownerKeyOf h else obsumKey h) "SET_SPARGE" [us.toNat] auth
    (setSparge us) s

/-- MGMT_YIELD: a YIELD from management, of both members of a pair (R106). -/
def execMgmtYield (c : Ch) (auth : Auth) (s : State) : Host.Outcome State Fault Refusal :=
  signedCmd ownerKeyOf "YIELD" [c.val] auth
    (fun s => (s.onAll (pairOf s c) (whileClocked (requestYield false))).reply .done) s

/-- RESTART (R363). -/
def execRestart (c : Ch) (auth : Auth) (s : State) : Host.Outcome State Fault Refusal :=
  signedCmd ownerKeyOf "RESTART" [c.val] auth
    (fun s => if restartable s.hub then (restartChannel true c s).reply .done else s.reply .refused) s

/-- The log holds the entry with a sequence number. -/
def logHolds (l : ErrLog) (n : Word) : Bool :=
  let age := (l.head - n).toNat
  decide (1 ≤ age ∧ age ≤ 256) && decide ((l.ring.toList.getD (n.toNat % 256) 0).setWidth 32 = n)

/-- READ_LOG: the entries from a sequence number that the ring still holds (R389, R401). -/
def execReadLog (first : Word) (count : Nat) (s : State) : Host.Outcome State Fault Refusal :=
  service firmware (fun s =>
    s.reply (.bytes (((List.range count).map fun k => first + BitVec.ofNat 32 k).flatMap fun n =>
      if logHolds s.hub.log n then natBytes 16 (s.hub.log.ring.toList.getD (n.toNat % 256) 0).toNat else []))) s

/-! ### The flash service contacts (R435) -/

/-- The record areas that a write to a device touches. -/
def touches (addr n k : Nat) : Bool :=
  decide (addr < recordBase + 0x80000 * (k + 1) ∧ recordBase + 0x80000 * k < addr + n)

/-- The bytes of an access that lie in a copy of the record area, with the offset there of the first of them. -/
def inCopy (addr : Nat) (data : List Byte) (k : Nat) : Nat × List Byte :=
  let base := recordBase + 0x80000 * k
  (addr - base, (data.drop (base - addr)).take (0x80000 - (addr - base)))

/-- A byte of a record copy: one that the programmer has put there, or one that the Maltster wrote. -/
def copyByte (r : RecordCopy) (off : Nat) : Byte :=
  match r.raw.find? fun p => decide (p.1 = off) with
  | some p => p.2
  | none => Config.recordByte r off

/-- A record copy that an external programmer has written over: what it now holds, and whether its CRC passes, is free.
(DESIGN CHOICE, log 75) -/
def spoil (addr : Nat) (data : List Byte) (k : Nat) (r : RecordCopy) : RecordCopy :=
  if touches addr data.length k then
    let x := inCopy addr data k
    { Config.recordWith r x.1 x.2 with raw := ((x.2.zipIdx x.1).map fun p => (p.2, p.1)) ++ r.raw }
  else r

/-- A byte of a device as its contacts give it. -/
def deviceByte (f : Flash) (a : Nat) : Byte :=
  if a < recordBase then memByte f.bytes a
  else if a < recordBase + 0x80000 then copyByte f.records[0] (a - recordBase)
  else copyByte f.records[1] (a - recordBase - 0x80000)

/-- FLASH_SERVICE_ACCESS: an external programmer reads or writes a device while aux is off. -/
def execFlashServiceAccess (dev : Bool) (addr : Nat) (access : FlashAccess) (s : State) :
    Host.Outcome State Fault Refusal :=
  if s.hub.supply.aux then .next s
  else
    match access with
    | .read n => onHub (fun h => { h with served := (List.range n).map fun i => deviceByte (flashOf h dev) (addr + i) }) s
    | .write data =>
      onHub (fun h => setFlash h dev (fun f =>
        { bytes := flashPut (Config.sfdp dev) f.bytes addr (data.take (recordBase - addr))
          records := Vector.ofFn fun i : Fin 2 => spoil addr data i.val f.records[i] })) s

end Sys2Proof.Machine
end

