-- ==== Sys2Proof/Machine/Dispatch.lean ====
section
/-! DEFINITION. One arm for each command: a direct call of its meaning. -/

namespace Sys2Proof.Machine

/-- What a command does to everything but the queue. (DESIGN CHOICE, log 2) -/
def exec (i : Instr) (s : State) : Host.Outcome State Fault Refusal :=
  match i with
  | .nop c b0 b1 => Sys2Proof.Machine.execNop c b0 b1 s
  | .dup c => Sys2Proof.Machine.execDup c s
  | .drop c => Sys2Proof.Machine.execDrop c s
  | .swap c => Sys2Proof.Machine.execSwap c s
  | .over c => Sys2Proof.Machine.execOver c s
  | .rot c => Sys2Proof.Machine.execRot c s
  | .nip c => Sys2Proof.Machine.execNip c s
  | .tuck c => Sys2Proof.Machine.execTuck c s
  | .twoDup c => Sys2Proof.Machine.execTwoDup c s
  | .twoDrop c => Sys2Proof.Machine.execTwoDrop c s
  | .pick c imm => Sys2Proof.Machine.execPick c imm s
  | .toR c => Sys2Proof.Machine.execToR c s
  | .rFrom c => Sys2Proof.Machine.execRFrom c s
  | .rFetch c => Sys2Proof.Machine.execRFetch c s
  | .rdrop c => Sys2Proof.Machine.execRdrop c s
  | .lit8 c imm => Sys2Proof.Machine.execLit8 c imm s
  | .lit16 c imm => Sys2Proof.Machine.execLit16 c imm s
  | .lit24 c imm => Sys2Proof.Machine.execLit24 c imm s
  | .litu16 c imm => Sys2Proof.Machine.execLitu16 c imm s
  | .lith c imm => Sys2Proof.Machine.execLith c imm s
  | .add c => Sys2Proof.Machine.execAdd c s
  | .adc c => Sys2Proof.Machine.execAdc c s
  | .sub c => Sys2Proof.Machine.execSub c s
  | .sbc c => Sys2Proof.Machine.execSbc c s
  | .neg c => Sys2Proof.Machine.execNeg c s
  | .cmp c => Sys2Proof.Machine.execCmp c s
  | .and c => Sys2Proof.Machine.execAnd c s
  | .or c => Sys2Proof.Machine.execOr c s
  | .xor c => Sys2Proof.Machine.execXor c s
  | .not c => Sys2Proof.Machine.execNot c s
  | .shl c => Sys2Proof.Machine.execShl c s
  | .shr c => Sys2Proof.Machine.execShr c s
  | .sar c => Sys2Proof.Machine.execSar c s
  | .rol c => Sys2Proof.Machine.execRol c s
  | .ror c => Sys2Proof.Machine.execRor c s
  | .tst c => Sys2Proof.Machine.execTst c s
  | .mul c => Sys2Proof.Machine.execMul c s
  | .mulh c => Sys2Proof.Machine.execMulh c s
  | .mulhu c => Sys2Proof.Machine.execMulhu c s
  | .mulw c => Sys2Proof.Machine.execMulw c s
  | .mulwu c => Sys2Proof.Machine.execMulwu c s
  | .divs c => Sys2Proof.Machine.execDivs c s
  | .divu c => Sys2Proof.Machine.execDivu c s
  | .min c => Sys2Proof.Machine.execMin c s
  | .max c => Sys2Proof.Machine.execMax c s
  | .minu c => Sys2Proof.Machine.execMinu c s
  | .maxu c => Sys2Proof.Machine.execMaxu c s
  | .abs c => Sys2Proof.Machine.execAbs c s
  | .clz c => Sys2Proof.Machine.execClz c s
  | .ctz c => Sys2Proof.Machine.execCtz c s
  | .popc c => Sys2Proof.Machine.execPopc c s
  | .addi c imm => Sys2Proof.Machine.execAddi c imm s
  | .andi c imm => Sys2Proof.Machine.execAndi c imm s
  | .ori c imm => Sys2Proof.Machine.execOri c imm s
  | .xori c imm => Sys2Proof.Machine.execXori c imm s
  | .cmpi c imm => Sys2Proof.Machine.execCmpi c imm s
  | .shli c imm => Sys2Proof.Machine.execShli c imm s
  | .shri c imm => Sys2Proof.Machine.execShri c imm s
  | .sari c imm => Sys2Proof.Machine.execSari c imm s
  | .rori c imm => Sys2Proof.Machine.execRori c imm s
  | .chkb c => Sys2Proof.Machine.execChkb c s
  | .chkbu c => Sys2Proof.Machine.execChkbu c s
  | .ldB c am d => Sys2Proof.Machine.execLdB c am d s
  | .ldBu c am d => Sys2Proof.Machine.execLdBu c am d s
  | .ldH c am d => Sys2Proof.Machine.execLdH c am d s
  | .ldHu c am d => Sys2Proof.Machine.execLdHu c am d s
  | .ldW c am d => Sys2Proof.Machine.execLdW c am d s
  | .stB c am d => Sys2Proof.Machine.execStB c am d s
  | .stH c am d => Sys2Proof.Machine.execStH c am d s
  | .stW c am d => Sys2Proof.Machine.execStW c am d s
  | .iread c => Sys2Proof.Machine.execIread c s
  | .ioIn c imm => Sys2Proof.Machine.execIoIn c imm s
  | .ins c => Sys2Proof.Machine.execIns c s
  | .ioOut c imm => Sys2Proof.Machine.execIoOut c imm s
  | .outs c => Sys2Proof.Machine.execOuts c s
  | .toA c n => Sys2Proof.Machine.execToA c n s
  | .aFrom c n => Sys2Proof.Machine.execAFrom c n s
  | .adda c n imm => Sys2Proof.Machine.execAdda c n imm s
  | .jmp c imm => Sys2Proof.Machine.execJmp c imm s
  | .jmps c => Sys2Proof.Machine.execJmps c s
  | .call c imm mask => Sys2Proof.Machine.execCall c imm mask s
  | .calls c imm => Sys2Proof.Machine.execCalls c imm s
  | .ret c => Sys2Proof.Machine.execRet c s
  | .reti c => Sys2Proof.Machine.execReti c s
  | .brk c => Sys2Proof.Machine.execBrk c s
  | .loop c imm => Sys2Proof.Machine.execLoop c imm s
  | .endl c => Sys2Proof.Machine.execEndl c s
  | .rep c n => Sys2Proof.Machine.execRep c n s
  | .bcc c cc imm => Sys2Proof.Machine.execBcc c cc imm s
  | .fadd c => Sys2Proof.Machine.execFadd c s
  | .fsub c => Sys2Proof.Machine.execFsub c s
  | .fmul c => Sys2Proof.Machine.execFmul c s
  | .fdiv c => Sys2Proof.Machine.execFdiv c s
  | .fsqrt c => Sys2Proof.Machine.execFsqrt c s
  | .fma c => Sys2Proof.Machine.execFma c s
  | .fneg c => Sys2Proof.Machine.execFneg c s
  | .fabs c => Sys2Proof.Machine.execFabs c s
  | .fmin c => Sys2Proof.Machine.execFmin c s
  | .fmax c => Sys2Proof.Machine.execFmax c s
  | .fcmp c => Sys2Proof.Machine.execFcmp c s
  | .fcvtSW c => Sys2Proof.Machine.execFcvtSW c s
  | .fcvtSWu c => Sys2Proof.Machine.execFcvtSWu c s
  | .fcvtWS c => Sys2Proof.Machine.execFcvtWS c s
  | .fcvtWuS c => Sys2Proof.Machine.execFcvtWuS c s
  | .fcvtSH c => Sys2Proof.Machine.execFcvtSH c s
  | .fcvtHS c => Sys2Proof.Machine.execFcvtHS c s
  | .fcvtSBf c => Sys2Proof.Machine.execFcvtSBf c s
  | .fcvtBfS c => Sys2Proof.Machine.execFcvtBfS c s
  | .permB4 c imm => Sys2Proof.Machine.execPermB4 c imm s
  | .permH2 c imm => Sys2Proof.Machine.execPermH2 c imm s
  | .addB4 c => Sys2Proof.Machine.execAddB4 c s
  | .subB4 c => Sys2Proof.Machine.execSubB4 c s
  | .addsB4 c => Sys2Proof.Machine.execAddsB4 c s
  | .addusB4 c => Sys2Proof.Machine.execAddusB4 c s
  | .subsB4 c => Sys2Proof.Machine.execSubsB4 c s
  | .subusB4 c => Sys2Proof.Machine.execSubusB4 c s
  | .ceqB4 c => Sys2Proof.Machine.execCeqB4 c s
  | .cgtB4 c => Sys2Proof.Machine.execCgtB4 c s
  | .addH2 c => Sys2Proof.Machine.execAddH2 c s
  | .subH2 c => Sys2Proof.Machine.execSubH2 c s
  | .addsH2 c => Sys2Proof.Machine.execAddsH2 c s
  | .addusH2 c => Sys2Proof.Machine.execAddusH2 c s
  | .subsH2 c => Sys2Proof.Machine.execSubsH2 c s
  | .subusH2 c => Sys2Proof.Machine.execSubusH2 c s
  | .ceqH2 c => Sys2Proof.Machine.execCeqH2 c s
  | .cgtH2 c => Sys2Proof.Machine.execCgtH2 c s
  | .minsB4 c => Sys2Proof.Machine.execMinsB4 c s
  | .maxsB4 c => Sys2Proof.Machine.execMaxsB4 c s
  | .minuB4 c => Sys2Proof.Machine.execMinuB4 c s
  | .maxuB4 c => Sys2Proof.Machine.execMaxuB4 c s
  | .mulB4 c => Sys2Proof.Machine.execMulB4 c s
  | .dotsB4 c => Sys2Proof.Machine.execDotsB4 c s
  | .dotuB4 c => Sys2Proof.Machine.execDotuB4 c s
  | .avguB4 c => Sys2Proof.Machine.execAvguB4 c s
  | .minsH2 c => Sys2Proof.Machine.execMinsH2 c s
  | .maxsH2 c => Sys2Proof.Machine.execMaxsH2 c s
  | .minuH2 c => Sys2Proof.Machine.execMinuH2 c s
  | .maxuH2 c => Sys2Proof.Machine.execMaxuH2 c s
  | .mulH2 c => Sys2Proof.Machine.execMulH2 c s
  | .dotsH2 c => Sys2Proof.Machine.execDotsH2 c s
  | .dotuH2 c => Sys2Proof.Machine.execDotuH2 c s
  | .avguH2 c => Sys2Proof.Machine.execAvguH2 c s
  | .aop c => Sys2Proof.Machine.execAop c s
  | .ared c => Sys2Proof.Machine.execAred c s
  | .afence c => Sys2Proof.Machine.execAfence c s
  | .rfence c => Sys2Proof.Machine.execRfence c s
  | .yield c => Sys2Proof.Machine.execYield c s
  | .resume c => Sys2Proof.Machine.execResume c s
  | .ei c => Sys2Proof.Machine.execEi c s
  | .di c => Sys2Proof.Machine.execDi c s
  | .wfi c => Sys2Proof.Machine.execWfi c s
  | .setvl c => Sys2Proof.Machine.execSetvl c s
  | .vld c am d => Sys2Proof.Machine.execVld c am d s
  | .vldff c am d => Sys2Proof.Machine.execVldff c am d s
  | .vst c am d => Sys2Proof.Machine.execVst c am d s
  | .vsplat c => Sys2Proof.Machine.execVsplat c s
  | .vextr c => Sys2Proof.Machine.execVextr c s
  | .vdup c => Sys2Proof.Machine.execVdup c s
  | .vdrop c => Sys2Proof.Machine.execVdrop c s
  | .vswap c => Sys2Proof.Machine.execVswap c s
  | .vover c => Sys2Proof.Machine.execVover c s
  | .vfadd c => Sys2Proof.Machine.execVfadd c s
  | .vfsub c => Sys2Proof.Machine.execVfsub c s
  | .vfmul c => Sys2Proof.Machine.execVfmul c s
  | .vfma c => Sys2Proof.Machine.execVfma c s
  | .vfmin c => Sys2Proof.Machine.execVfmin c s
  | .vfmax c => Sys2Proof.Machine.execVfmax c s
  | .vfneg c => Sys2Proof.Machine.execVfneg c s
  | .vfabs c => Sys2Proof.Machine.execVfabs c s
  | .vfredsum c => Sys2Proof.Machine.execVfredsum c s
  | .vcvtSW c => Sys2Proof.Machine.execVcvtSW c s
  | .vcvtWS c => Sys2Proof.Machine.execVcvtWS c s
  | .vadd c => Sys2Proof.Machine.execVadd c s
  | .vsub c => Sys2Proof.Machine.execVsub c s
  | .vmul c => Sys2Proof.Machine.execVmul c s
  | .vand c => Sys2Proof.Machine.execVand c s
  | .vor c => Sys2Proof.Machine.execVor c s
  | .vxor c => Sys2Proof.Machine.execVxor c s
  | .vredadd c => Sys2Proof.Machine.execVredadd c s
  | .asyncTrapEntry c => Sys2Proof.Machine.execAsyncTrapEntry c s
  | .aopQueueEntryFree c => Sys2Proof.Machine.execAopQueueEntryFree c s
  | .aredWaitEnd c => Sys2Proof.Machine.execAredWaitEnd c s
  | .afenceWaitEnd c => Sys2Proof.Machine.execAfenceWaitEnd c s
  | .rfenceWaitEnd c => Sys2Proof.Machine.execRfenceWaitEnd c s
  | .yieldStatusKnown c => Sys2Proof.Machine.execYieldStatusKnown c s
  | .resumeStallEnd c => Sys2Proof.Machine.execResumeStallEnd c s
  | .outStallEnd c => Sys2Proof.Machine.execOutStallEnd c s
  | .wfiWake c => Sys2Proof.Machine.execWfiWake c s
  | .arrayOpIssue c => Sys2Proof.Machine.execArrayOpIssue c s
  | .arrayAdmit c => Sys2Proof.Machine.execAdmit c s
  | .seqInc c => Sys2Proof.Machine.execSeqInc c s
  | .seqJmp c => Sys2Proof.Machine.execSeqJmp c s
  | .seqJc c => Sys2Proof.Machine.execSeqJc c s
  | .seqJnc c => Sys2Proof.Machine.execSeqJnc c s
  | .seqCall c => Sys2Proof.Machine.execSeqCall c s
  | .seqRet c => Sys2Proof.Machine.execSeqRet c s
  | .seqLoop c => Sys2Proof.Machine.execSeqLoop c s
  | .seqLdloop c => Sys2Proof.Machine.execSeqLdloop c s
  | .seqWait c => Sys2Proof.Machine.execSeqWait c s
  | .seqWaitj c => Sys2Proof.Machine.execSeqWaitj c s
  | .seqEnd c => Sys2Proof.Machine.execSeqEnd c s
  | .seqTrappt c => Sys2Proof.Machine.execSeqTrappt c s
  | .seqEndtrap c => Sys2Proof.Machine.execSeqEndtrap c s
  | .seqHalt c => Sys2Proof.Machine.execSeqHalt c s
  | .gorValid c differ => Sys2Proof.Machine.execGorValid c differ s
  | .rootCountAdd c differ => Sys2Proof.Machine.execRootCountAdd c differ s
  | .rootClear c => Sys2Proof.Machine.execRootClear c s
  | .rootSflag c => Sys2Proof.Machine.execRootSflag c s
  | .rootSnap c => Sys2Proof.Machine.execRootSnap c s
  | .rootLoad c => Sys2Proof.Machine.execRootLoad c s
  | .rootMerge c => Sys2Proof.Machine.execRootMerge c s
  | .rootXsend c => Sys2Proof.Machine.execRootXsend c s
  | .rootRound c => Sys2Proof.Machine.execRootRound c s
  | .edgeReleaseStrobe c => Sys2Proof.Machine.execEdgeReleaseStrobe c s
  | .edgeStallLimit c => Sys2Proof.Machine.execEdgeStallLimit c s
  | .edgeSlotArrive c e => Sys2Proof.Machine.execEdgeSlotArrive c e s
  | .yieldBoundary c => Sys2Proof.Machine.execYieldBoundary c s
  | .trapSaveComplete c => Sys2Proof.Machine.execTrapSaveComplete c s
  | .signatureCompare c bad => Sys2Proof.Machine.execSignatureCompare c bad s
  | .planeCeWriteback c tun column => Sys2Proof.Machine.execPlaneCeWriteback c tun column s
  | .planeStagingAccess c tun => Sys2Proof.Machine.execPlaneStagingAccess c tun s
  | .arrayQctlGo c => Sys2Proof.Machine.execArrayQctlGo c s
  | .arrayQctlDrop c => Sys2Proof.Machine.execArrayQctlDrop c s
  | .arrayQctlFlush c => Sys2Proof.Machine.execArrayQctlFlush c s
  | .arrayTrapCtlAbandon c => Sys2Proof.Machine.execArrayTrapCtlAbandon c s
  | .arrayEdgeCtlWrite c v => Sys2Proof.Machine.execArrayEdgeCtlWrite c v s
  | .gfdWrite c n v => Sys2Proof.Machine.execGfdWrite c n v s
  | .gfdPreset c v => Sys2Proof.Machine.execGfdPreset c v s
  | .arraySeedLoWrite c v => Sys2Proof.Machine.execArraySeedLoWrite c v s
  | .arraySeedHiWrite c v => Sys2Proof.Machine.execArraySeedHiWrite c v s
  | .arraySrEpochLoWrite c v => Sys2Proof.Machine.execArraySrEpochLoWrite c v s
  | .arraySrEpochHiWrite c v => Sys2Proof.Machine.execArraySrEpochHiWrite c v s
  | .arraySrCtlMark c => Sys2Proof.Machine.execArraySrCtlMark c s
  | .lsnapWrite c n v => Sys2Proof.Machine.execLsnapWrite c n v s
  | .lauterXdestWrite c n v => Sys2Proof.Machine.execLauterXdestWrite c n v s
  | .lrxExpectWrite c v => Sys2Proof.Machine.execLrxExpectWrite c v s
  | .splitRegisterLowRead c a => Sys2Proof.Machine.execSplitRegisterLowRead c a s
  | .stackPointerWrite c a v => Sys2Proof.Machine.execStackPointerWrite c a v s
  | .intSet c v => Sys2Proof.Machine.execIntSet c v s
  | .registerWrite c a v => Sys2Proof.Machine.execRegisterWrite c a v s
  | .h2cMboxWrite c v => Sys2Proof.Machine.execH2cMboxWrite c v s
  | .c2hMboxWrite c v => Sys2Proof.Machine.execC2hMboxWrite c v s
  | .mgmtMbWrite c v => Sys2Proof.Machine.execMgmtMbWrite c v s
  | .planeRetSet c => Sys2Proof.Machine.execPlaneRetSet c s
  | .planeRetClear c => Sys2Proof.Machine.execPlaneRetClear c s
  | .memCeWriteback c imem word => Sys2Proof.Machine.execMemCeWriteback c imem word s
  | .imemWaitLimit c => Sys2Proof.Machine.execImemWaitLimit c s
  | .dmemWriteRetry c tag lands => Sys2Proof.Machine.execDmemWriteRetry c tag lands s
  | .spargeRegionStart c mem region => Sys2Proof.Machine.execSpargeRegionStart c mem region s
  | .spargeStep c mem test upsets => Sys2Proof.Machine.execSpargeStep c mem test upsets s
  | .spargeStarved c mem => Sys2Proof.Machine.execSpargeStarved c mem s
  | .spargeUstoreRead c tun addr => Sys2Proof.Machine.execSpargeUstoreRead c tun addr s
  | .rqSqdbWrite c q v => Sys2Proof.Machine.execRqSqdbWrite c q v s
  | .rqCqdbWrite c q v => Sys2Proof.Machine.execRqCqdbWrite c q v s
  | .rqCfgEnable c q v => Sys2Proof.Machine.execRqCfgEnable c q v s
  | .rqCfgDisable c q v => Sys2Proof.Machine.execRqCfgDisable c q v s
  | .doorbellSample c q => Sys2Proof.Machine.execDoorbellSample c q s
  | .sqEntryFetch c q => Sys2Proof.Machine.execSqEntryFetch c q s
  | .rackNop c tag => Sys2Proof.Machine.execRackNop c tag s
  | .rackCopy c tag clash => Sys2Proof.Machine.execRackCopy c tag clash s
  | .rackFill c tag clash => Sys2Proof.Machine.execRackFill c tag clash s
  | .rackFence c tag => Sys2Proof.Machine.execRackFence c tag s
  | .transferComplete c tag clash => Sys2Proof.Machine.execTransferComplete c tag clash s
  | .cqWordRetry c q lands => Sys2Proof.Machine.execCqWordRetry c q lands s
  | .rqModTimerExpire c q => Sys2Proof.Machine.execRqModTimerExpire c q s
  | .inboundHbmWrite c => Sys2Proof.Machine.execInboundHbmWrite c s
  | .inboundPlaneWrite c => Sys2Proof.Machine.execInboundPlaneWrite c s
  | .inboundNotifyWrite c ended clash => Sys2Proof.Machine.execInboundNotifyWrite c ended clash s
  | .responseReceive c => Sys2Proof.Machine.execResponseReceive c s
  | .rackRtimeoutExpire c tag => Sys2Proof.Machine.execRackRtimeoutExpire c tag s
  | .hbmScrubRead c block => Sys2Proof.Machine.execHbmScrubRead c block s
  | .hbmRefresh c => Sys2Proof.Machine.execHbmRefresh c s
  | .millLoad c ends => Sys2Proof.Machine.execMillLoad c ends s
  | .millScrubCheck c => Sys2Proof.Machine.execMillScrubCheck c s
  | .millParityError c b => Sys2Proof.Machine.execMillParityError c b s
  | .millEventEdge c n => Sys2Proof.Machine.execMillEventEdge c n s
  | .millCtlUreset c v => Sys2Proof.Machine.execMillCtlUreset c v s
  | .tapLockLost c => Sys2Proof.Machine.execTapLockLost c s
  | .tapSigdetChange c => Sys2Proof.Machine.execTapSigdetChange c s
  | .kegPortNegotiate c p => Sys2Proof.Machine.execKegPortNegotiate c p s
  | .kegNegotiationDone c p msg => Sys2Proof.Machine.execKegNegotiationDone c p msg s
  | .kegNegotiationRetry c p => Sys2Proof.Machine.execKegNegotiationRetry c p s
  | .kegLaneErrorLimit c p lane => Sys2Proof.Machine.execKegLaneErrorLimit c p lane s
  | .kegLaneLockLoss c p lane => Sys2Proof.Machine.execKegLaneLockLoss c p lane s
  | .kegPcfgReneg c p => Sys2Proof.Machine.execKegPcfgReneg c p s
  | .kegRenegRequest c p => Sys2Proof.Machine.execKegRenegRequest c p s
  | .kegFrameReceive c p frame => Sys2Proof.Machine.execKegFrameReceive c p frame s
  | .kegFrameTransmit c p => Sys2Proof.Machine.execKegFrameTransmit c p s
  | .routerPacketArrive c p => Sys2Proof.Machine.execRouterPacketArrive c p s
  | .kegDownLimitExpire c p => Sys2Proof.Machine.execKegDownLimitExpire c p s
  | .inboundImage c => Sys2Proof.Machine.execInboundImage c s
  | .mgmtPacket c out => Sys2Proof.Machine.execMgmtPacket c out s
  | .timebaseSync round => Sys2Proof.Machine.execTimebaseSync round s
  | .timebaseHoldover => Sys2Proof.Machine.execTimebaseHoldover s
  | .tbCompareFire c k => Sys2Proof.Machine.execTbCompareFire c k s
  | .tbCmpctlArm c k => Sys2Proof.Machine.execTbCmpctlArm c k s
  | .tbCmpctlDisarm c k => Sys2Proof.Machine.execTbCmpctlDisarm c k s
  | .chPwrCtlDoze c v => Sys2Proof.Machine.execChPwrCtlDoze c v s
  | .modPwrCtlDozeSet c => Sys2Proof.Machine.execModPwrCtlDozeSet c s
  | .modPwrCtlDozeClear c => Sys2Proof.Machine.execModPwrCtlDozeClear c s
  | .dozeEntry c => Sys2Proof.Machine.execDozeEntry c s
  | .idleEntry c => Sys2Proof.Machine.execIdleEntry c s
  | .idleExit c => Sys2Proof.Machine.execIdleExit c s
  | .auxOnlyWrite on => Sys2Proof.Machine.execAuxOnlyWrite on s
  | .auxPowerValid selfTest => Sys2Proof.Machine.execAuxPowerValid selfTest s
  | .auxPowerRemoved => Sys2Proof.Machine.execAuxPowerRemoved s
  | .mainPowerStart => Sys2Proof.Machine.execMainPowerStart s
  | .mainPowerLost => Sys2Proof.Machine.execMainPowerLost s
  | .bothSuppliesLost => Sys2Proof.Machine.execBothSuppliesLost s
  | .inputTrip overcurrent => Sys2Proof.Machine.execInputTrip overcurrent s
  | .inputSwitchReclose => Sys2Proof.Machine.execInputSwitchReclose s
  | .channelLeaveReset c hbm copies => Sys2Proof.Machine.execChannelLeaveReset c hbm copies s
  | .kegBypassOpen => Sys2Proof.Machine.execKegBypassOpen s
  | .channelEnterRun c => Sys2Proof.Machine.execChannelEnterRun c s
  | .channelRestart c => Sys2Proof.Machine.execChannelRestart c s
  | .perstNAssert => Sys2Proof.Machine.execPerstNAssert s
  | .perstNRelease lanes partner => Sys2Proof.Machine.execPerstNRelease lanes partner s
  | .hotReset err => Sys2Proof.Machine.execHotReset err s
  | .linkRetrain lanes partner corrected => Sys2Proof.Machine.execLinkRetrain lanes partner corrected s
  | .flrChannelFunction c => Sys2Proof.Machine.execFlrChannelFunction c s
  | .flrPf0 => Sys2Proof.Machine.execFlrPf0 s
  | .pmStateChange f d3 => Sys2Proof.Machine.execPmStateChange f d3 s
  | .hostConfigRequest f req => Sys2Proof.Machine.execHostConfigRequest f req s
  | .hostBar0RegisterRead f off count => Sys2Proof.Machine.execHostBar0RegisterRead f off count s
  | .hostBar0RegisterWrite f off data met => Sys2Proof.Machine.execHostBar0RegisterWrite f off data met s
  | .hostDmemWindowRead c off count => Sys2Proof.Machine.execHostDmemWindowRead c off count s
  | .hostDmemWindowWrite c off data clash => Sys2Proof.Machine.execHostDmemWindowWrite c off data clash s
  | .hostBar2Read c addr count => Sys2Proof.Machine.execHostBar2Read c addr count s
  | .hostBar2Write c addr data => Sys2Proof.Machine.execHostBar2Write c addr data s
  | .hostUnsupportedRequest f => Sys2Proof.Machine.execHostUnsupportedRequest f s
  | .hostPoisonedWrite f => Sys2Proof.Machine.execHostPoisonedWrite f s
  | .hostReadCompletion c tag ans clash => Sys2Proof.Machine.execHostReadCompletion c tag ans clash s
  | .hostReadTimeout c tag => Sys2Proof.Machine.execHostReadTimeout c tag s
  | .msixUnmask f vec => Sys2Proof.Machine.execMsixUnmask f vec s
  | .errorReportAccept second => Sys2Proof.Machine.execErrorReportAccept second s
  | .channelOvertemp c hot => Sys2Proof.Machine.execChannelOvertemp c hot s
  | .channelPllUnlock which => Sys2Proof.Machine.execChannelPllUnlock which s
  | .pairedCompareTimeout c => Sys2Proof.Machine.execPairedCompareTimeout c s
  | .availRecordWrite ms => Sys2Proof.Machine.execAvailRecordWrite ms s
  | .telemetryThreshold c temp => Sys2Proof.Machine.execTelemetryThreshold c temp s
  | .tamperDetect src => Sys2Proof.Machine.execTamperDetect src s
  | .capCtlArm c => Sys2Proof.Machine.execCapCtlArm c s
  | .capCtlCancel c => Sys2Proof.Machine.execCapCtlCancel c s
  | .captureEdge c => Sys2Proof.Machine.execCaptureEdge c s
  | .extest => Sys2Proof.Machine.execExtest s
  | .samplePreload => Sys2Proof.Machine.execSamplePreload s
  | .idcode => Sys2Proof.Machine.execIdcode s
  | .intest => Sys2Proof.Machine.execIntest s
  | .tapBypass => Sys2Proof.Machine.execTapBypass s
  | .dapCmd w => Sys2Proof.Machine.execDapCmd w s
  | .dapData w valid => Sys2Proof.Machine.execDapData w valid s
  | .dapStatus => Sys2Proof.Machine.execDapStatus s
  | .pwUnlock => Sys2Proof.Machine.execPwUnlock s
  | .getChallenge => Sys2Proof.Machine.execGetChallenge s
  | .crResponse => Sys2Proof.Machine.execCrResponse s
  | .dbgClose => Sys2Proof.Machine.execDbgClose s
  | .provision => Sys2Proof.Machine.execProvision s
  | .regRead => Sys2Proof.Machine.execRegRead s
  | .regWrite => Sys2Proof.Machine.execRegWrite s
  | .memRead => Sys2Proof.Machine.execMemRead s
  | .freezeRelease => Sys2Proof.Machine.execFreezeRelease s
  | .chReset => Sys2Proof.Machine.execChReset s
  | .dbgBreak => Sys2Proof.Machine.execDbgBreak s
  | .dbgStep => Sys2Proof.Machine.execDbgStep s
  | .vendorTestCommand => Sys2Proof.Machine.execVendorTestCommand s
  | .mctpControl eid => Sys2Proof.Machine.execMctpControl eid s
  | .pldmMonitoring req => Sys2Proof.Machine.execPldmMonitoring req s
  | .pldmFirmwareUpdate dev addr data => Sys2Proof.Machine.execPldmFirmwareUpdate dev addr data s
  | .activateFirmware dev => Sys2Proof.Machine.execActivateFirmware dev s
  | .getVersion => Sys2Proof.Machine.execGetVersion s
  | .getCapabilities => Sys2Proof.Machine.execGetCapabilities s
  | .negotiateAlgorithms p384 sha384 => Sys2Proof.Machine.execNegotiateAlgorithms p384 sha384 s
  | .getDigests => Sys2Proof.Machine.execGetDigests s
  | .getCertificate => Sys2Proof.Machine.execGetCertificate s
  | .challenge nonce => Sys2Proof.Machine.execChallenge nonce s
  | .getMeasurements index => Sys2Proof.Machine.execGetMeasurements index s
  | .getNonce => Sys2Proof.Machine.execGetNonce s
  | .enrol msg auth => Sys2Proof.Machine.execEnrol msg auth s
  | .transition target auth => Sys2Proof.Machine.execTransition target auth s
  | .commitFloor v auth => Sys2Proof.Machine.execCommitFloor v auth s
  | .setOwnerFloor v auth => Sys2Proof.Machine.execSetOwnerFloor v auth s
  | .setPassword salt hash auth => Sys2Proof.Machine.execSetPassword salt hash auth s
  | .setSparge us auth => Sys2Proof.Machine.execSetSparge us auth s
  | .mgmtYield c auth => Sys2Proof.Machine.execMgmtYield c auth s
  | .restart c auth => Sys2Proof.Machine.execRestart c auth s
  | .readLog first count => Sys2Proof.Machine.execReadLog first count s
  | .controllerCoreCheck c => Sys2Proof.Machine.execControllerCoreCheck c s
  | .maltsterLockstepMismatch => Sys2Proof.Machine.execMaltsterLockstepMismatch s
  | .hostPortInternalError => Sys2Proof.Machine.execHostPortInternalError s
  | .guardedWriteVerify c tun bad => Sys2Proof.Machine.execGuardedWriteVerify c tun bad s
  | .tapLock c => Sys2Proof.Machine.execTapLock c s
  | .millClockTreeEdge c tree rx errs upsets => Sys2Proof.Machine.execMillClockTreeEdge c tree rx errs upsets s
  | .msixTableWrite f vec cell v => Sys2Proof.Machine.execMsixTableWrite f vec cell v s
  | .kegPcfgEnable c p on => Sys2Proof.Machine.execKegPcfgEnable c p on s
  | .flashServiceAccess dev addr access => Sys2Proof.Machine.execFlashServiceAccess dev addr access s
  | .lidSwitchLatch isOpen => Sys2Proof.Machine.execLidSwitchLatch isOpen s

end Sys2Proof.Machine
end

