-- ==== Sys2Proof/Machine/Step.lean ====
section
/-! DEFINITION. One step of the part: the command at the front of the queue, or one nanosecond of TIMEBASE when none
waits (R423). -/

namespace Sys2Proof.Machine

/-- TIMEBASE counts nanoseconds whenever aux power is valid (R424), in each of which the armed compare units are compared
(R425), and the outputs of PAIRED pairs are compared (R404). An empty queue lets one nanosecond pass. (DESIGN CHOICE, log 1;
DESIGN CHOICE, log 3; DESIGN CHOICE, log 94) -/
def tick (s : State) : State :=
  if s.hub.supply.aux then
    settlePairs (passTime 1 s)
  else s

/-- One step: the command at the front of the queue acts on the machine with the queue's rest.
(DESIGN CHOICE, log 1) -/
def step (s : State) : Host.Outcome State Fault Refusal :=
  match s.pending with
  | [] => .next (tick s)
  | c :: rest => exec c { s with pending := rest }

/-- The machine with the command that a word spells put at the front of its queue; unchanged where the word spells
none. (DESIGN CHOICE, log 4) -/
def State.withFetchWord (s : State) (nbits w : Nat) : State :=
  match decodeTableWord nbits w with
  | some c => { s with pending := c :: s.pending }
  | none => s

end Sys2Proof.Machine
end

