-- ==== Sys2Proof/Safety.lean ====
section
/-! DEFINITION. What the statements say in common: the canonical form of the memories, when a controller instruction
executes and completes, traps or transfers, the two stacks as the program sees them, and the invariants. -/

namespace Sys2Proof.Machine

/-! ### Memories -/

/-- The canonical form of a byte memory: addresses rise strictly and no listed byte is 0, what an unlisted one reads. -/
def Memory.wf (m : List (Nat × Byte)) : Bool := sparseWf 0#8 m

/-- Every byte memory of a channel, its plane sheets and its function's MSI-X table are in their canonical form. -/
def Chan.memWf (ch : Chan) : Bool :=
  Memory.wf ch.mem.imem && Memory.wf ch.mem.dmem && Memory.wf ch.hbm.bytes && sparseWf 0#1048576 ch.arr.planes
    && sparseWf (1#128 <<< 96) ch.fn.table

/-- Every memory of the machine is in its canonical form. -/
def State.memWf (s : State) : Bool :=
  s.chans.toList.all Chan.memWf && (s.hub.flash.toList.all fun f => Memory.wf f.bytes)
    && sparseWf (1#128 <<< 96) s.hub.pf0.table

/-! ### A controller instruction -/

/-- Channel `c` executes an instruction of `len` bytes now: it runs and does not wait, no event comes first (R193), and
the fetch of the instruction succeeds and leaves the channel as `ch`. -/
def Fetches (s : State) (c : Ch) (len : Nat) (ch : Chan) : Prop :=
  ctlReady (s.chan c) = true ∧ fetchOk (s.chan c) len = .ok ch

/-- The command completes as a sequential instruction of `len` bytes whose effect leaves channel `c` as `r`: the next
state is the old one with that channel moved past the instruction. -/
def Completes (i : Instr) (s : State) (c : Ch) (len : Nat) (r : Chan) : Prop :=
  exec i s = .next (s.setChan c (afterInstr (advance r len)))

/-- The command completes and leaves channel `c` as `r`, its PC where the instruction has put it. -/
def Transfers (i : Instr) (s : State) (c : Ch) (r : Chan) : Prop := exec i s = .next (s.setChan c (afterInstr r))

/-- The command takes a synchronous trap from channel `ch`, the state before the instruction's effect (R173, R194). -/
def Traps (i : Instr) (s : State) (c : Ch) (ch : Chan) (t : TrapInfo) : Prop :=
  exec i s = .next (s.setChan c (syncTrap ch t))

/-- The command takes a synchronous trap after reads that left the channel as `f`: nothing that the instruction did remains
but the single-bit errors that those reads met (R173, R192, R240). -/
def TrapsAfter (i : Instr) (s : State) (c : Ch) (ch f : Chan) (t : TrapInfo) : Prop :=
  exec i s = .next (s.setChan c (syncTrap (keepReads ch f) t))

/-- An instruction that pushes what `g` gives. -/
def Pushes (i : Instr) (c : Ch) (len : Nat) (g : Ctl → List Word × Ctl) : Prop :=
  ∀ s ch r, Fetches s c len ch → pushData { ch with ctl := (g ch.ctl).2 } (g ch.ctl).1 = .ok r → Completes i s c len r

/-- An instruction ( a -- … ): the results and the other controller registers are as `g` gives them. -/
def Pops1 (i : Instr) (c : Ch) (len : Nat) (g : Word → Ctl → List Word × Ctl) : Prop :=
  ∀ s ch f r a rest, Fetches s c len ch → fillData ch 1 = .ok f → f.ctl.ds = a :: rest →
    let x := g a { f.ctl with ds := rest }
    pushData { f with ctl := x.2 } x.1 = .ok r → Completes i s c len r

/-- An instruction ( a b -- … ). -/
def Pops2 (i : Instr) (c : Ch) (len : Nat) (g : Word → Word → Ctl → List Word × Ctl) : Prop :=
  ∀ s ch f r a b rest, Fetches s c len ch → fillData ch 2 = .ok f → f.ctl.ds = b :: a :: rest →
    let x := g a b { f.ctl with ds := rest }
    pushData { f with ctl := x.2 } x.1 = .ok r → Completes i s c len r

/-- An instruction ( a b d -- … ). -/
def Pops3 (i : Instr) (c : Ch) (len : Nat) (g : Word → Word → Word → Ctl → List Word × Ctl) : Prop :=
  ∀ s ch f r a b d rest, Fetches s c len ch → fillData ch 3 = .ok f → f.ctl.ds = d :: b :: a :: rest →
    let x := g a b d { f.ctl with ds := rest }
    pushData { f with ctl := x.2 } x.1 = .ok r → Completes i s c len r

/-- A scalar load with addressing byte `am`: the address of R179 passes the checks of R178, its DMEM word can be read, and
the value pushed is what `val` reads at the byte address (R215). -/
def LoadsWith (i : Instr) (c : Ch) (am : Byte) (d : Half) (size : Nat) (val : List (Nat × Byte) → Nat → Word) : Prop :=
  ∀ s ch f q r m w p, Fetches s c (amLen 1 am) ch → decodeAm am d false = .ok m → fillData ch (amPops m) = .ok f →
    let u := { f with ctl := { f.ctl with ds := f.ctl.ds.drop (amPops m) } }
    place (amAddr u.ctl m size (f.ctl.ds.take (amPops m))) size = .ok p → dmemRead u (placeAddr p) = .ok (w, q) →
    pushData { q with ctl := amUpdate q.ctl m size } [val u.mem.dmem (placeAddr p)] = .ok r →
    Completes i s c (amLen 1 am) r

/-- A scalar store with addressing byte `am` ( x [addr] -- ): `x` lies below the address cell, where there is one. -/
def StoresWith (i : Instr) (c : Ch) (am : Byte) (d : Half) (size : Nat) : Prop :=
  ∀ s ch f q r m p, Fetches s c (amLen 1 am) ch → decodeAm am d false = .ok m → fillData ch (amPops m + 1) = .ok f →
    let u := { f with ctl := { f.ctl with ds := f.ctl.ds.drop (amPops m + 1) } }
    place (amAddr u.ctl m size (f.ctl.ds.take (amPops m + 1))) size = .ok p →
    storePlace u p size (f.ctl.ds.getD (amPops m) 0) = .ok q →
    pushData { q with ctl := amUpdate q.ctl m size } [] = .ok r → Completes i s c (amLen 1 am) r

/-- What a store of the low `size` bytes of `x` at byte address `a` leaves at address `k` of a memory. -/
def storedByte (m : List (Nat × Byte)) (a size : Nat) (x : Word) (k : Nat) : Byte :=
  if a ≤ k ∧ k < a + size then x.extractLsb' (8 * (k - a)) 8 else memByte m k

/-- The cells of a loop nest block, first to last (R175): LS, LE and LC of each open level, then the depth. -/
def nestBlock (t : Ctl) : List Word :=
  ((List.range t.depth).map fun k =>
    [(levelAt t k).ls.zeroExtend 32, (levelAt t k).le.zeroExtend 32, (levelAt t k).lc]).flatten ++ [BitVec.ofNat 32 t.depth]

/-- The controller registers that hold a count keep to the counts that the spec gives them: at most 8 and 16 cells in core
(R172), 4 loop levels (R182), 256 elements and 8 vector entries (R188). -/
def Ctl.bounded (t : Ctl) : Prop :=
  t.ds.length ≤ 8 ∧ t.rs.length ≤ 16 ∧ t.depth ≤ 4 ∧ t.vl ≤ 256 ∧ t.vs.length ≤ 8

/-! ### Flags as the spec words them (R180) -/

/-- N and Z of a result. -/
def withNZ (r : Word) (t : Ctl) : Ctl := { t with n := r.msb, z := r == 0 }

/-- The sum of `a`, `b` and the carry-in, with N, Z, the carry out of bit 31, and V where both operands have the sign that
the result has not. -/
def sumOf (a b : Word) (cin : Bool) (t : Ctl) : List Word × Ctl :=
  let r := a + b + BitVec.ofNat 32 cin.toNat
  ([r], { withNZ r t with
    c := decide (2 ^ 32 ≤ a.toNat + b.toNat + cin.toNat), v := a.msb == b.msb && r.msb != a.msb })

/-- The difference of `a` and `b`, less 1 where the carry-in is 0, with N, Z, C where no borrow occurs, and V where the
operands' signs differ and the result's sign is not that of `a`. -/
def diffOf (a b : Word) (cin : Bool) (t : Ctl) : List Word × Ctl :=
  let r := a - b - BitVec.ofNat 32 (1 - cin.toNat)
  ([r], { withNZ r t with
    c := decide (b.toNat + (1 - cin.toNat) ≤ a.toNat), v := a.msb != b.msb && r.msb != a.msb })

/-- A result with N and Z. -/
def nzOf (r : Word) (t : Ctl) : List Word × Ctl := ([r], withNZ r t)

/-- A result with N, Z and C; none leaves C unchanged. -/
def nzcOf (r : Word) (k : Option Bool) (t : Ctl) : List Word × Ctl := ([r], { withNZ r t with c := k.getD t.c })

/-- SHL as arithmetic: x · 2^n, and C bit 32 of it (R212). -/
def leftOf (x : Word) (n : Nat) (t : Ctl) : List Word × Ctl :=
  nzcOf (BitVec.ofNat 32 (x.toNat <<< n)) (if n = 0 then none else some ((x.toNat <<< n).testBit 32)) t

/-- SHR as arithmetic: ⌊x ÷ 2^n⌋ of the unsigned value, and C its last bit out (R212). -/
def rightOf (x : Word) (n : Nat) (t : Ctl) : List Word × Ctl :=
  nzcOf (BitVec.ofNat 32 (x.toNat >>> n)) (if n = 0 then none else some (x.toNat.testBit (n - 1))) t

/-- SAR as arithmetic: ⌊x ÷ 2^n⌋ of the signed value, and C the last bit out (R212). -/
def signedRightOf (x : Word) (n : Nat) (t : Ctl) : List Word × Ctl :=
  nzcOf (BitVec.ofInt 32 (x.toInt >>> n)) (if n = 0 then none else some (decide ((x.toInt >>> (n - 1)) % 2 = 1))) t

/-- ROL by n mod 32; C is bit 0 of the result unless that is 0 (R212). -/
def leftRoundOf (x : Word) (n : Nat) (t : Ctl) : List Word × Ctl :=
  let r := x <<< (n % 32) ||| x >>> (32 - n % 32)
  nzcOf r (if n % 32 = 0 then none else some (r.getLsbD 0)) t

/-- ROR by n mod 32; C is bit 31 of the result unless that is 0 (R212). -/
def rightRoundOf (x : Word) (n : Nat) (t : Ctl) : List Word × Ctl :=
  let r := x >>> (n % 32) ||| x <<< (32 - n % 32)
  nzcOf r (if n % 32 = 0 then none else some (r.getLsbD 31)) t

/-- FPCTL with the flags of `k` set: NV, DZ, OF, UF, NX, BD are bits 0 to 5 of `k` and bits 4 to 9 of FPCTL. -/
def withFp (k : BitVec 6) (t : Ctl) : Ctl := { t with fpctl := t.fpctl ||| (k.setWidth 10 <<< 4) }

/-- A quotient and remainder with N and Z of the quotient and a V (R213). -/
def quotOf (r q : Word) (v : Bool) (t : Ctl) : List Word × Ctl := ([r, q], { withNZ q t with v := v })

/-- A floating result and its flags, which FPCTL accumulates (R219). -/
def fpOf (x : Nat × FFlags) (t : Ctl) : List Word × Ctl := ([BitVec.ofNat 32 x.1], withFp x.2 t)

/-- A binary32 NaN: exponent all ones and a fraction that is not 0 (R116). -/
def nan32 (x : Word) : Bool := x.extractLsb' 23 8 == 0xFF && x.extractLsb' 0 23 != 0

/-- A signaling binary32 NaN: fraction bit 22 is 0 (R116). -/
def snan32 (x : Word) : Bool := nan32 x && !x.getLsbD 22

/-- Work on the four bytes of two cells, lane by lane (R221). -/
def byBytes (g : BitVec 8 → BitVec 8 → BitVec 8) (a b : Word) : Word :=
  g (a.extractLsb' 24 8) (b.extractLsb' 24 8) ++ g (a.extractLsb' 16 8) (b.extractLsb' 16 8)
    ++ g (a.extractLsb' 8 8) (b.extractLsb' 8 8) ++ g (a.extractLsb' 0 8) (b.extractLsb' 0 8)

/-- Work on the two half-words of two cells, lane by lane (R221). -/
def byHalves (g : BitVec 16 → BitVec 16 → BitVec 16) (a b : Word) : Word :=
  g (a.extractLsb' 16 16) (b.extractLsb' 16 16) ++ g (a.extractLsb' 0 16) (b.extractLsb' 0 16)

/-- A signed value held to the range of a lane (R221). -/
def clampLane (w : Nat) (x : Int) : BitVec w := BitVec.ofInt w (max (-(2 ^ (w - 1) : Nat)) (min ((2 ^ (w - 1) : Nat) - 1) x))

/-! ### Vector instructions -/

/-- An instruction of the vector page that takes `k` entries, the deepest first, and leaves one whose elements below VL are
what `g` gives, with its flags ORed into FPCTL, and whose other elements are 0 (R188, R227). -/
def VecElems (i : Instr) (c : Ch) (k : Nat) (g : BitVec 10 → List Word → Word × FFlags) : Prop :=
  ∀ s ch, Fetches s c 2 ch → k ≤ ch.ctl.vs.length → ch.ctl.vs.length ≤ 8 → 0 < k →
    let x := fun n : Nat => g ch.ctl.fpctl ((ch.ctl.vs.take k).reverse.map fun v => v.toList.getD n 0)
    let e : Vector Word 256 := Vector.ofFn fun n => if n.val < ch.ctl.vl then (x n.val).1 else 0
    let fl := ((List.range ch.ctl.vl).map fun n => (x n).2).foldl (fun p q => p ||| q) 0
    Completes i s c 2 { ch with ctl := { withFp fl ch.ctl with vs := e :: ch.ctl.vs.drop k } }

/-- Binary32 work on one element. -/
def fpElem (f : BitVec 10 → List Nat → Nat × FFlags) (fp : BitVec 10) (xs : List Word) : Word × FFlags :=
  let r := f fp (xs.map BitVec.toNat)
  (BitVec.ofNat 32 r.1, r.2)

/-- Work on one pair of elements that sets no flag. -/
def pairElem (f : Word → Word → Word) (_fp : BitVec 10) (xs : List Word) : Word × FFlags :=
  (f (xs.getD 0 0) (xs.getD 1 0), 0)

/-- The element at byte address `a` reaches beyond DMEM, or a load reads an uncorrectable word of it (R229). -/
def elemBad (ch : Chan) (a : Nat) (load : Bool) : Prop :=
  0x100000 < a % 2 ^ 32 + 4 ∨
    (load = true ∧ ∃ k < 4, markUe ch.mem.dmarks ((a % 2 ^ 32 + k) / 4) = true)

/-! ### Waiting instructions -/

/-- The command waits, with the channel otherwise as `r` and its inputs still in place (R200). -/
def Waits (i : Instr) (s : State) (c : Ch) (r : Chan) (k : WaitKind) (len : Nat) : Prop :=
  exec i s = .next (s.setChan c { r with ev := { r.ev with wait := some { kind := k, len := len } } })

/-- Channel `c` runs and its controller waits in an instruction of `len` bytes. -/
def InWait (s : State) (c : Ch) (k : WaitKind) (len : Nat) : Prop :=
  chanRunning (s.chan c) = true ∧ (s.chan c).ev.wait = some { kind := k, len := len }

/-- The waiting instruction completes and leaves channel `c` as `r`, which waits no more (R199, R200). -/
def WaitEnds (i : Instr) (s : State) (c : Ch) (len : Nat) (r : Chan) : Prop :=
  exec i s = .next (s.setChan c (afterInstr (advance { r with ev := { r.ev with wait := none } } len)))

/-! ### Micro-words -/

/-- The op that runs on channel `c` presents `w`, a word of a routine whose words the microstore holds (R74). -/
def PresentsWord (s : State) (c : Ch) (x : OpCtx) (w : Quad) : Prop :=
  presenting (s.chan c) = some x ∧ opRoutine x.word ≠ 0 ∧ isBehav (s.chan c) (opRoutine x.word) = false ∧
    isVerify (s.chan c) x = false ∧ w = wordAt (s.chan c) (opRoutine x.word) x.upc.toNat

/-- The word executes in this micro-cycle: no field and no read faults, and every condition holds (R56, R79, R87). -/
def WordExecutes (ch : Chan) (x : OpCtx) (w : Quad) : Prop :=
  rangeFault ch x w = none ∧ wordReady ch x w = true ∧ eccFault ch x w = none

/-- The command leaves an op running on channel `c`, in a state that `P` describes. -/
def GoesOn (i : Instr) (s : State) (c : Ch) (P : OpCtx → Prop) : Prop :=
  ∃ r y, exec i s = .next (s.setChan c r) ∧ r.seq.cur = some y ∧ P y

/-! ### The host and the module -/

/-- What a host write of `data` from address `lo` leaves at address `a`; a byte that is not enabled is `none` (R347, R348).
-/
def hostPut (m : List (Nat × Byte)) (lo : Nat) (data : List (Option Byte)) (a : Nat) : Byte :=
  match if lo ≤ a then data.getD (a - lo) none else none with
  | some b => b
  | none => memByte m a

/-- The host reaches channel `c` as one that runs and is not one of a pair: the link is up, its function decodes memory
requests, and main power is on (R340, R350). -/
def HostServed (s : State) (c : Ch) : Prop :=
  linkUp s.hub = true ∧ decodes (s.chan c).fn = true ∧ s.hub.supply.rails = true ∧ chanRunning (s.chan c) = true ∧
    (s.chan c).err.mode ≠ 2

/-- The command answers a next state that `P` describes. -/
def Gives (i : Instr) (s : State) (P : State → Prop) : Prop := ∃ t, exec i s = .next t ∧ P t

/-! ### Controller instructions and the fuses -/

/-- The channel whose controller executes the instruction, where the command is one of the instructions of R210 to R230. -/
def ctlOf : Instr → Option Ch
  | .dup c | .drop c | .swap c | .over c | .rot c | .nip c | .tuck c | .twoDup c | .twoDrop c | .toR c | .rFrom c
  | .rFetch c | .rdrop c | .add c | .adc c | .sub c | .sbc c | .neg c | .cmp c | .and c | .or c | .xor c | .not c
  | .shl c | .shr c | .sar c | .rol c | .ror c | .tst c | .mul c | .mulh c | .mulhu c | .mulw c | .mulwu c
  | .divs c | .divu c | .min c | .max c | .minu c | .maxu c | .abs c | .clz c | .ctz c | .popc c | .chkb c
  | .chkbu c | .iread c | .ins c | .outs c | .jmps c | .ret c | .reti c | .brk c | .endl c | .fadd c | .fsub c
  | .fmul c | .fdiv c | .fsqrt c | .fma c | .fneg c | .fabs c | .fmin c | .fmax c | .fcmp c | .fcvtSW c
  | .fcvtSWu c | .fcvtWS c | .fcvtWuS c | .fcvtSH c | .fcvtHS c | .fcvtSBf c | .fcvtBfS c | .addB4 c | .subB4 c
  | .addsB4 c | .addusB4 c | .subsB4 c | .subusB4 c | .ceqB4 c | .cgtB4 c | .addH2 c | .subH2 c | .addsH2 c
  | .addusH2 c | .subsH2 c | .subusH2 c | .ceqH2 c | .cgtH2 c | .minsB4 c | .maxsB4 c | .minuB4 c | .maxuB4 c
  | .mulB4 c | .dotsB4 c | .dotuB4 c | .avguB4 c | .minsH2 c | .maxsH2 c | .minuH2 c | .maxuH2 c | .mulH2 c
  | .dotsH2 c | .dotuH2 c | .avguH2 c | .aop c | .ared c | .afence c | .rfence c | .yield c | .resume c | .ei c
  | .di c | .wfi c | .setvl c | .vsplat c | .vextr c | .vdup c | .vdrop c | .vswap c | .vover c | .vfadd c
  | .vfsub c | .vfmul c | .vfma c | .vfmin c | .vfmax c | .vfneg c | .vfabs c | .vfredsum c | .vcvtSW c | .vcvtWS c
  | .vadd c | .vsub c | .vmul c | .vand c | .vor c | .vxor c | .vredadd c => some c
  | .nop c _ _ | .pick c _ | .lit8 c _ | .lit16 c _ | .lit24 c _ | .litu16 c _ | .lith c _ | .addi c _ | .andi c _
  | .ori c _ | .xori c _ | .cmpi c _ | .shli c _ | .shri c _ | .sari c _ | .rori c _ | .ioIn c _ | .ioOut c _
  | .toA c _ | .aFrom c _ | .jmp c _ | .calls c _ | .loop c _ | .permB4 c _ | .permH2 c _ => some c
  | .ldB c _ _ | .ldBu c _ _ | .ldH c _ _ | .ldHu c _ _ | .ldW c _ _ | .stB c _ _ | .stH c _ _ | .stW c _ _
  | .adda c _ _ | .call c _ _ | .bcc c _ _ | .vld c _ _ | .vldff c _ _ | .vst c _ _ => some c
  | .rep c _ => some c
  | _ => none

/-- The floor thermometer of R371 and R372: the newest step is above every older one, and there are at most 64. -/
def Fuses.floorOrdered (f : Fuses) : Prop := f.floor.Pairwise (fun a b => b.toNat < a.toNat) ∧ f.floor.length ≤ 64

end Sys2Proof.Machine
end

