-- ==== Sys2Proof/Certificates/Slice0/Obligations.lean ====
section
/-! DEFINITION. The statements for the provers. -/

open Sys2Proof Sys2Proof.Machine

/-! ### The queue -/

/-- A step takes the command at the front of the queue and runs it on the machine with the queue's rest. -/
def Obligations.StepRunsTheFrontCommand : Prop :=
  ∀ (s : State) (i : Instr) (rest : List Instr),
    step { s with pending := i :: rest } = exec i { s with pending := rest }

/-- The model's choice (log 1): on an empty queue a step lets one nanosecond of TIMEBASE pass while aux power is valid
(R424), in which an armed compare unit that matches fires (R425), and changes nothing else but the outputs of PAIRED pairs
that wait to be compared (log 94). At a rate off nominal the count gains or loses one in each 10 µs (log 63). -/
def Obligations.EmptyQueueCountsTimebase : Prop :=
  ∀ s : State, s.pending = [] →
    let b := s.hub.timebase
    let k := BitVec.ofNat 64 ((b.since + 1) / 10000 - b.since / 10000)
    let n := match b.rate with
      | .nominal => b.count + 1
      | .fast => b.count + 1 + k
      | .slow => b.count + 1 - k
    let t := { s with hub := { s.hub with timebase := { b with count := n, since := b.since + 1 } } }
    (s.hub.supply.aux = false → step s = .next s) ∧
    (s.hub.supply.aux = true → step s = .next (settlePairs (passTime 1 s))) ∧
    (s.hub.supply.aux = true → (∀ c, (s.chan c).err.copies = []) →
      ((∀ c, (s.chan c).pwr.arm0 = false ∧ (s.chan c).pwr.arm1 = false) → step s = .next t) ∧
      (∀ c : Ch, (∀ d, d ≠ c → (s.chan d).pwr.arm0 = false ∧ (s.chan d).pwr.arm1 = false) →
        (s.chan c).pwr.arm1 = false → (s.chan c).pwr.arm0 = true → unitsRun (s.chan c) = true →
        (s.chan c).pwr.tbWake = false → (n.setWidth 32 - (s.chan c).pwr.cmp0).toNat < 2 ^ 31 →
        step s = .next (t.setChan c { s.chan c with
          pwr := { (s.chan c).pwr with arm0 := false }
          ev := { (s.chan c).ev with intPend := (s.chan c).ev.intPend ||| (1 <<< 7) } })))

/-! ### Stack, literal and address-register instructions -/

/-- R210: what the stack instructions move, and NOP. R210: >R, R>, R@ and RDROP. R172, R173, R188 and R192: the two
stacks in DMEM. Pushing beyond 8 data cells, or 16 return cells, writes the oldest ones at DSP, or RSP, upward and
moves it up past them; cells that are missing come back from below it, and it moves down. The other bytes of DMEM
stay. A push that would pass the limit raises DOVF or ROVF, a pop that would pass the base DUNF or RUNF, and an
uncorrectable word DACCESS ECC; a full vector stack raises VOVF and an empty one VUNF. -/
def Obligations.StackInstructionsMoveCells : Prop :=
  (∀ c : Ch,
     (∀ b1 s ch, Fetches s c 1 ch → Completes (.nop c 0 b1) s c 1 ch) ∧
     Pops1 (.dup c) c 1 (fun a t => ([a, a], t)) ∧
     Pops1 (.drop c) c 1 (fun _ t => ([], t)) ∧
     Pops2 (.swap c) c 1 (fun a b t => ([b, a], t)) ∧
     Pops2 (.over c) c 1 (fun a b t => ([a, b, a], t)) ∧
     Pops3 (.rot c) c 1 (fun a b d t => ([b, d, a], t)) ∧
     Pops2 (.nip c) c 1 (fun _ b t => ([b], t)) ∧
     Pops2 (.tuck c) c 1 (fun a b t => ([b, a, b], t)) ∧
     Pops2 (.twoDup c) c 1 (fun a b t => ([a, b, a, b], t)) ∧
     Pops2 (.twoDrop c) c 1 (fun _ _ t => ([], t)) ∧
     (∀ (k : Byte) s ch f r, k.toNat ≤ 6 → Fetches s c 2 ch → fillData ch (k.toNat + 1) = .ok f →
       pushData f [f.ctl.ds.getD k.toNat 0] = .ok r → Completes (.pick c k) s c 2 r)) ∧
  (∀ (c : Ch) (s : State) (ch : Chan), Fetches s c 1 ch →
     (∀ f a rest q r, fillData ch 1 = .ok f → f.ctl.ds = a :: rest →
       pushReturn { f with ctl := { f.ctl with ds := rest } } [a] = .ok q → pushData q [] = .ok r →
       Completes (.toR c) s c 1 r) ∧
     (∀ x q r, popReturn ch 1 = .ok ([x], q) → pushData q [x] = .ok r → Completes (.rFrom c) s c 1 r) ∧
     (∀ x q r, popReturn ch 1 = .ok ([x], q) →
       pushData { q with ctl := { q.ctl with rs := x :: q.ctl.rs } } [x] = .ok r → Completes (.rFetch c) s c 1 r) ∧
     (∀ x q r, popReturn ch 1 = .ok ([x], q) → pushData q [] = .ok r → Completes (.rdrop c) s c 1 r)) ∧
  ((∀ (ch : Chan) (xs : List Word),
     let all := xs.reverse ++ ch.ctl.ds
     let n := all.length - 8
     let low := ch.ctl.dsp.toNat / 4 * 4
     (all.length ≤ 8 → pushData ch xs = .ok { ch with ctl := { ch.ctl with ds := all } }) ∧
     (8 < all.length → min ch.ctl.dspLimit.toNat 0x100000 < ch.ctl.dsp.toNat + 4 * n →
       pushData ch xs = .error { vec := 4, cause := 1, addr := 0 }) ∧
     (8 < all.length → ch.ctl.dsp.toNat + 4 * n ≤ min ch.ctl.dspLimit.toNat 0x100000 → ∃ r, pushData ch xs = .ok r ∧
       r.ctl = { ch.ctl with ds := all.take 8, dsp := ch.ctl.dsp + BitVec.ofNat 32 (4 * n) } ∧
       r = { ch with ctl := r.ctl, mem := { ch.mem with dmem := r.mem.dmem, dmarks := r.mem.dmarks, spD := r.mem.spD } } ∧
       (Memory.wf ch.mem.dmem = true →
         (∀ k, k < n → memWord r.mem.dmem (low + 4 * k) = all.getD (all.length - 1 - k) 0) ∧
         ∀ a, a < low ∨ low + 4 * n ≤ a → memByte r.mem.dmem a = memByte ch.mem.dmem a))) ∧
   (∀ (ch : Chan) (xs : List Word),
     let all := xs.reverse ++ ch.ctl.rs
     let n := all.length - 16
     let low := ch.ctl.rsp.toNat / 4 * 4
     (all.length ≤ 16 → pushReturn ch xs = .ok { ch with ctl := { ch.ctl with rs := all } }) ∧
     (16 < all.length → min ch.ctl.rspLimit.toNat 0x100000 < ch.ctl.rsp.toNat + 4 * n →
       pushReturn ch xs = .error { vec := 4, cause := 3, addr := 0 }) ∧
     (16 < all.length → ch.ctl.rsp.toNat + 4 * n ≤ min ch.ctl.rspLimit.toNat 0x100000 → ∃ r, pushReturn ch xs = .ok r ∧
       r.ctl = { ch.ctl with rs := all.take 16, rsp := ch.ctl.rsp + BitVec.ofNat 32 (4 * n) } ∧
       r = { ch with ctl := r.ctl, mem := { ch.mem with dmem := r.mem.dmem, dmarks := r.mem.dmarks, spD := r.mem.spD } } ∧
       (Memory.wf ch.mem.dmem = true →
         (∀ k, k < n → memWord r.mem.dmem (low + 4 * k) = all.getD (all.length - 1 - k) 0) ∧
         ∀ a, a < low ∨ low + 4 * n ≤ a → memByte r.mem.dmem a = memByte ch.mem.dmem a))) ∧
   (∀ (ch : Chan) (k : Nat),
     let n := k - ch.ctl.ds.length
     let m := k - ch.ctl.rs.length
     let cell := fun (p : Word) j => (p.toNat - 4 * (j + 1)) / 4
     let clean := fun (p : Word) n => ∀ j, j < n → markUe ch.mem.dmarks (cell p j) = false ∧
       markCe ch.mem.dmarks (cell p j) = false
     (k ≤ ch.ctl.ds.length → fillData ch k = .ok ch) ∧
     (0 < n → ch.ctl.dsp.toNat < ch.ctl.dspBase.toNat + 4 * n →
       fillData ch k = .error { vec := 4, cause := 2, addr := 0 }) ∧
     (0 < n → ch.ctl.dspBase.toNat + 4 * n ≤ ch.ctl.dsp.toNat → clean ch.ctl.dsp n →
       fillData ch k = .ok { ch with ctl := { ch.ctl with
         ds := ch.ctl.ds ++ (List.range n).map fun j => memWord ch.mem.dmem (4 * cell ch.ctl.dsp j)
         dsp := ch.ctl.dsp - BitVec.ofNat 32 (4 * n) } }) ∧
     (k ≤ ch.ctl.rs.length → popReturn ch k = .ok (ch.ctl.rs.take k,
       { ch with ctl := { ch.ctl with rs := ch.ctl.rs.drop k } })) ∧
     (0 < m → ch.ctl.rsp.toNat < ch.ctl.rspBase.toNat + 4 * m →
       popReturn ch k = .error { vec := 4, cause := 4, addr := 0 }) ∧
     (0 < m → ch.ctl.rspBase.toNat + 4 * m ≤ ch.ctl.rsp.toNat → clean ch.ctl.rsp m →
       popReturn ch k = .ok (ch.ctl.rs ++ (List.range m).map fun j => memWord ch.mem.dmem (4 * cell ch.ctl.rsp j),
         { ch with ctl := { ch.ctl with rs := [], rsp := ch.ctl.rsp - BitVec.ofNat 32 (4 * m) } }))) ∧
   (∀ (c : Ch) (s : State) (ch : Chan), Fetches s c 1 ch →
     (ch.ctl.ds = [] → ch.ctl.dsp.toNat < ch.ctl.dspBase.toNat + 4 →
       ∀ i ∈ ([.dup c, .drop c, .toR c, .neg c, .not c, .tst c, .abs c, .jmps c, .iread c, .ins c, .outs c] : List Instr),
         Traps i s c ch { vec := 4, cause := 2, addr := 0 }) ∧
     (ch.ctl.ds.length < 2 → ch.ctl.dsp.toNat < ch.ctl.dspBase.toNat + 4 * (2 - ch.ctl.ds.length) →
       ∀ i ∈ ([.swap c, .over c, .add c, .sub c, .cmp c, .and c, .shl c, .mul c, .divs c, .chkbu c, .fadd c] : List Instr),
         Traps i s c ch { vec := 4, cause := 2, addr := 0 }) ∧
     (ch.ctl.ds.length < 3 → ch.ctl.dsp.toNat < ch.ctl.dspBase.toNat + 4 * (3 - ch.ctl.ds.length) →
       ∀ i ∈ ([.rot c, .chkb c, .fma c] : List Instr), Traps i s c ch { vec := 4, cause := 2, addr := 0 }) ∧
     (∀ a, ch.ctl.ds = [] → ch.ctl.dspBase.toNat + 4 ≤ ch.ctl.dsp.toNat → a = (ch.ctl.dsp.toNat - 4) / 4 * 4 →
       markUe ch.mem.dmarks (a / 4) = true → ∀ i ∈ ([.dup c, .drop c, .toR c, .neg c, .jmps c] : List Instr),
         Traps i s c ch { vec := 7, cause := 4, addr := BitVec.ofNat 32 a, ecc := some a }) ∧
     (ch.ctl.ds.length = 8 → min ch.ctl.dspLimit.toNat 0x100000 < ch.ctl.dsp.toNat + 4 →
       ∀ i ∈ ([.dup c, .over c, .tuck c, .aFrom c 0] : List Instr), Traps i s c ch { vec := 4, cause := 1, addr := 0 }) ∧
     (∀ x rest, ch.ctl.ds = x :: rest → ch.ctl.rs.length = 16 →
       min ch.ctl.rspLimit.toNat 0x100000 < ch.ctl.rsp.toNat + 4 →
       Traps (.toR c) s c ch { vec := 4, cause := 3, addr := 0 }) ∧
     (ch.ctl.rs = [] → ch.ctl.rsp.toNat < ch.ctl.rspBase.toNat + 4 →
       ∀ i ∈ ([.rFrom c, .rFetch c, .rdrop c] : List Instr), Traps i s c ch { vec := 4, cause := 4, addr := 0 })) ∧
   (∀ (c : Ch) (s : State) (ch : Chan), Fetches s c 2 ch →
     (ch.ctl.vs = [] → ∀ i ∈ ([.vdup c, .vdrop c, .vswap c, .vover c, .vfadd c, .vadd c, .vfneg c, .vredadd c, .vfredsum c] :
       List Instr), Traps i s c ch { vec := 4, cause := 7, addr := 0 }) ∧
     (ch.ctl.vs.length = 8 → ∀ i ∈ ([.vdup c, .vover c] : List Instr),
       Traps i s c ch { vec := 4, cause := 6, addr := 0 }) ∧
     (∀ x rest, ch.ctl.vs.length = 8 → ch.ctl.ds = x :: rest →
       Traps (.vsplat c) s c ch { vec := 4, cause := 6, addr := 0 })))

/-- R210 and R216: the literals and the address registers. -/
def Obligations.LiteralsAndAddressRegisters : Prop :=
  ∀ c : Ch,
    (∀ i : Byte, Pushes (.lit8 c i) c 2 (fun t => ([i.signExtend 32], t))) ∧
    (∀ i : Half, Pushes (.lit16 c i) c 3 (fun t => ([i.signExtend 32], t))) ∧
    (∀ i : BitVec 24, Pushes (.lit24 c i) c 4 (fun t => ([i.signExtend 32], t))) ∧
    (∀ i : Half, Pushes (.litu16 c i) c 3 (fun t => ([i.zeroExtend 32], t))) ∧
    (∀ i : Half, Pops1 (.lith c i) c 3 (fun x t => ([i ++ x.extractLsb' 0 16], t))) ∧
    (∀ n : Fin 8, Pops1 (.toA c n) c 1 (fun x t => ([], { t with a := t.a.set n x }))) ∧
    (∀ n : Fin 8, Pushes (.aFrom c n) c 1 (fun t => ([t.a[n]], t))) ∧
    (∀ (n : Fin 8) (i : Half) s ch, Fetches s c 3 ch →
      Completes (.adda c n i) s c 3
        { ch with ctl := { ch.ctl with a := ch.ctl.a.set n (BitVec.ofInt 32 (ch.ctl.a[n].toNat + i.toInt)) } })

/-- R205, R209, R225 and R226: an operand byte out of range and a reserved encoding raise UNDEF, with no effect on the
stacks: the reserved cells of the primary map, and of the two pages. R203: what the bytes of a few instructions
spell. R191, R192 and R240: an instruction that reaches beyond IMEM raises IFETCH RANGE with the first byte there,
and one with an uncorrectable word in a line that is not buffered IFETCH ECC with that word's address (log 16,
DEDUCED), before anything of it executes. The bytes and lengths are those of R203 to R209. -/
def Obligations.ReservedEncodingsRaiseUndef : Prop :=
  ((∀ (c : Ch) (s : State) (ch : Chan) (i : Byte),
     (6 < i.toNat → Fetches s c 2 ch → Traps (.pick c i) s c ch { vec := 1, cause := 3, addr := 0 }) ∧
     (31 < i.toNat → Fetches s c 2 ch → Traps (.shli c i) s c ch { vec := 1, cause := 3, addr := 0 } ∧
       Traps (.shri c i) s c ch { vec := 1, cause := 3, addr := 0 } ∧
       Traps (.sari c i) s c ch { vec := 1, cause := 3, addr := 0 } ∧
       Traps (.rori c i) s c ch { vec := 1, cause := 3, addr := 0 }) ∧
     (3 < i.toNat → Fetches s c 2 ch → Traps (.permH2 c i) s c ch { vec := 1, cause := 3, addr := 0 }) ∧
     (∀ b : Byte, i.toNat = 0x0F ∨ (0x15 ≤ i.toNat ∧ i.toNat ≤ 0x1F) ∨ i.toNat = 0x3F ∨ (0x4B ≤ i.toNat ∧ i.toNat ≤ 0x4F) ∨
         (0x5D ≤ i.toNat ∧ i.toNat ≤ 0x5F) ∨ (0x78 ≤ i.toNat ∧ i.toNat ≤ 0x7F) ∨ (0x8A ≤ i.toNat ∧ i.toNat ≤ 0x8F) ∨
         i.toNat = 0xAF ∨ (0xB6 ≤ i.toNat ∧ i.toNat ≤ 0xBF) ∨ (0xE4 ≤ i.toNat ∧ i.toNat ≤ 0xFD) →
       Fetches s c 1 ch → Traps (.nop c i b) s c ch { vec := 1, cause := 1, addr := 0 }) ∧
     (5 ≤ i.toNat → Fetches s c 2 ch → Traps (.nop c 0xFF i) s c ch { vec := 1, cause := 2, addr := 0 }) ∧
     ((0x0A ≤ i.toNat ∧ i.toNat ≤ 0x0F) ∨ (0x1B ≤ i.toNat ∧ i.toNat ≤ 0x1F) ∨ 0x27 ≤ i.toNat → Fetches s c 2 ch →
       Traps (.nop c 0xFE i) s c ch { vec := 1, cause := 2, addr := 0 })) ∧
   (∀ (c : Ch) (a b d e f : Byte) (o : List Byte),
     readInstr c (0x20 :: o) = some (.add c, 1) ∧ readInstr c (0x0A :: a :: o) = some (.pick c a, 2) ∧
     readInstr c (0x12 :: a :: b :: d :: o) = some (.lit24 c (d ++ b ++ a), 4) ∧
     readInstr c (0x40 :: a :: b :: o) = some (.addi c (b ++ a), 3) ∧
     readInstr c (0x54 :: 0x12 :: a :: b :: o) = some (.ldW c 0x12 (b ++ a), 4) ∧
     readInstr c (0x57 :: 0x18 :: o) = some (.stW c 0x18 0, 2) ∧ readInstr c (0x75 :: a :: b :: o) = some (.adda c 5 (b ++ a), 3) ∧
     readInstr c (0x82 :: a :: b :: d :: e :: f :: o) = some (.call c (d ++ b ++ a) (f ++ e), 6) ∧
     readInstr c (0x9B :: a :: b :: o) = some (.bcc c 11 (b ++ a), 3) ∧ readInstr c (0xA5 :: o) = some (.fma c, 1) ∧
     readInstr c (0xD5 :: o) = some (.dotsB4 c, 1) ∧ readInstr c (0xFF :: 0x04 :: o) = some (.wfi c, 2) ∧
     readInstr c (0xFE :: 0x01 :: 0x0B :: o) = some (.vld c 0x0B 0, 3) ∧ readInstr c (0x0F :: o) = none)) ∧
  (∀ (c : Ch) (s : State) (bytes : List Byte) (i : Instr) (len : Nat), readInstr c bytes = some (i, len) →
     ctlReady (s.chan c) = true →
     let ch := s.chan c
     let pc := ch.ctl.pc.toNat
     (0x80000 < pc + len → Traps i s c ch { vec := 6, cause := 1, addr := BitVec.ofNat 32 (max pc 0x80000) }) ∧
     (∀ w, pc + len ≤ 0x80000 → ch.mem.fetchBuf = [] → (∀ m ∈ ch.mem.imarks, m.ue = true) →
       pc / 4 ≤ w → w ≤ (pc + len - 1) / 4 → markUe ch.mem.imarks w = true →
       (∀ v, pc / 4 ≤ v → v < w → markUe ch.mem.imarks v = false) →
       Traps i s c ch { vec := 6, cause := 2, addr := BitVec.ofNat 32 (4 * w) }))

/-! ### Integer instructions -/

/-- R211: sums and differences with N, Z, C and V. -/
def Obligations.SumsAndDifferencesSetNZCV : Prop :=
  ∀ c : Ch,
    Pops2 (.add c) c 1 (fun a b t => sumOf a b false t) ∧
    Pops2 (.adc c) c 1 (fun a b t => sumOf a b t.c t) ∧
    Pops2 (.sub c) c 1 (fun a b t => diffOf a b true t) ∧
    Pops2 (.sbc c) c 1 (fun a b t => diffOf a b t.c t) ∧
    Pops1 (.neg c) c 1 (fun a t => diffOf 0 a true t) ∧
    Pops2 (.cmp c) c 1 (fun a b t => ([], (diffOf a b true t).2)) ∧
    (∀ i : Half, Pops1 (.addi c i) c 3 (fun a t => sumOf a (i.signExtend 32) false t)) ∧
    (∀ i : Half, Pops1 (.cmpi c i) c 3 (fun a t => ([], (diffOf a (i.signExtend 32) true t).2)))

/-- R211 and R213: the instructions that set N and Z from one result, and ABS with its V. -/
def Obligations.OneResultInstructionsSetNZ : Prop :=
  ∀ c : Ch,
    Pops2 (.and c) c 1 (fun a b t => nzOf (a &&& b) t) ∧
    Pops2 (.or c) c 1 (fun a b t => nzOf (a ||| b) t) ∧
    Pops2 (.xor c) c 1 (fun a b t => nzOf (a ^^^ b) t) ∧
    Pops1 (.not c) c 1 (fun a t => nzOf (~~~a) t) ∧
    Pops1 (.tst c) c 1 (fun a t => nzOf a t) ∧
    (∀ i : Half, Pops1 (.andi c i) c 3 (fun a t => nzOf (a &&& i.zeroExtend 32) t)) ∧
    (∀ i : Half, Pops1 (.ori c i) c 3 (fun a t => nzOf (a ||| i.zeroExtend 32) t)) ∧
    (∀ i : Half, Pops1 (.xori c i) c 3 (fun a t => nzOf (a ^^^ i.zeroExtend 32) t)) ∧
    Pops2 (.min c) c 1 (fun a b t => nzOf (BitVec.ofInt 32 (min a.toInt b.toInt)) t) ∧
    Pops2 (.max c) c 1 (fun a b t => nzOf (BitVec.ofInt 32 (max a.toInt b.toInt)) t) ∧
    Pops2 (.minu c) c 1 (fun a b t => nzOf (BitVec.ofNat 32 (min a.toNat b.toNat)) t) ∧
    Pops2 (.maxu c) c 1 (fun a b t => nzOf (BitVec.ofNat 32 (max a.toNat b.toNat)) t) ∧
    Pops2 (.mul c) c 1 (fun a b t => nzOf (BitVec.ofNat 32 (a.toNat * b.toNat)) t) ∧
    Pops2 (.mulh c) c 1 (fun a b t => nzOf (BitVec.ofInt 32 ((a.toInt * b.toInt) / 2 ^ 32)) t) ∧
    Pops2 (.mulhu c) c 1 (fun a b t => nzOf (BitVec.ofNat 32 (a.toNat * b.toNat / 2 ^ 32)) t) ∧
    Pops1 (.clz c) c 1 (fun a t => nzOf (BitVec.ofNat 32 ((List.range 32).takeWhile fun k => !a.getMsbD k).length) t) ∧
    Pops1 (.ctz c) c 1 (fun a t => nzOf (BitVec.ofNat 32 ((List.range 32).takeWhile fun k => !a.getLsbD k).length) t) ∧
    Pops1 (.popc c) c 1 (fun a t => nzOf (BitVec.ofNat 32 ((List.range 32).countP fun k => a.getLsbD k)) t) ∧
    Pops1 (.abs c) c 1 (fun a t =>
      let r := BitVec.ofNat 32 a.toInt.natAbs
      ([r], { withNZ r t with v := a == 0x80000000#32 }))

/-- R212: shifts and rotates by the whole 32-bit count, and by an immediate of 0 to 31. -/
def Obligations.ShiftsTakeTheWholeCount : Prop :=
  ∀ c : Ch,
    Pops2 (.shl c) c 1 (fun x n t => leftOf x n.toNat t) ∧
    Pops2 (.shr c) c 1 (fun x n t => rightOf x n.toNat t) ∧
    Pops2 (.sar c) c 1 (fun x n t => signedRightOf x n.toNat t) ∧
    Pops2 (.rol c) c 1 (fun x n t => leftRoundOf x n.toNat t) ∧
    Pops2 (.ror c) c 1 (fun x n t => rightRoundOf x n.toNat t) ∧
    (∀ i : Byte, i.toNat ≤ 31 →
      Pops1 (.shli c i) c 2 (fun x t => leftOf x i.toNat t) ∧
      Pops1 (.shri c i) c 2 (fun x t => rightOf x i.toNat t) ∧
      Pops1 (.sari c i) c 2 (fun x t => signedRightOf x i.toNat t) ∧
      Pops1 (.rori c i) c 2 (fun x t => rightRoundOf x i.toNat t))

/-- R213: 64-bit products, and division with its two corners. -/
def Obligations.WideProductsAndQuotients : Prop :=
  ∀ c : Ch,
    Pops2 (.mulw c) c 1 (fun a b t =>
      let p := a.toInt * b.toInt
      ([BitVec.ofInt 32 p, BitVec.ofInt 32 (p / 2 ^ 32)], { t with n := decide (p < 0), z := decide (p = 0) })) ∧
    Pops2 (.mulwu c) c 1 (fun a b t =>
      let p := a.toNat * b.toNat
      ([BitVec.ofNat 32 p, BitVec.ofNat 32 (p / 2 ^ 32)], { t with n := decide (2 ^ 63 ≤ p), z := decide (p = 0) })) ∧
    Pops2 (.divs c) c 1 (fun a b t =>
      if b = 0 then quotOf a 0xFFFFFFFF false (withFp 2 t)
      else if a = 0x80000000 ∧ b = 0xFFFFFFFF then quotOf 0 0x80000000 true (withFp 4 t)
      else quotOf (BitVec.ofInt 32 (a.toInt.tmod b.toInt)) (BitVec.ofInt 32 (a.toInt.tdiv b.toInt)) false t) ∧
    Pops2 (.divu c) c 1 (fun a b t =>
      if b = 0 then quotOf a 0xFFFFFFFF false (withFp 2 t)
      else quotOf (BitVec.ofNat 32 (a.toNat % b.toNat)) (BitVec.ofNat 32 (a.toNat / b.toNat)) false t)

/-- R214: a bounds check keeps the index when it holds, and otherwise traps BOUNDS with the index in TRAP_ADDR and every
input on the stack. -/
def Obligations.BoundsChecksKeepOrTrap : Prop :=
  ∀ (c : Ch) (s : State) (ch f : Chan), Fetches s c 1 ch →
    (∀ i lo hi rest, fillData ch 3 = .ok f → f.ctl.ds = hi :: lo :: i :: rest →
      (lo.toInt ≤ i.toInt ∧ i.toInt ≤ hi.toInt →
        ∀ r, pushData { f with ctl := { f.ctl with ds := rest } } [i] = .ok r → Completes (.chkb c) s c 1 r) ∧
      (¬ (lo.toInt ≤ i.toInt ∧ i.toInt ≤ hi.toInt) → TrapsAfter (.chkb c) s c ch f { vec := 3, cause := 1, addr := i })) ∧
    (∀ i lim rest, fillData ch 2 = .ok f → f.ctl.ds = lim :: i :: rest →
      (i.toNat < lim.toNat →
        ∀ r, pushData { f with ctl := { f.ctl with ds := rest } } [i] = .ok r → Completes (.chkbu c) s c 1 r) ∧
      (lim.toNat ≤ i.toNat → TrapsAfter (.chkbu c) s c ch f { vec := 3, cause := 2, addr := i }))

/-! ### Memory and I/O -/

/-- R179 and R204: the addressing byte names the mode, and the modes form their addresses; R205 refuses the rest. -/
def Obligations.AddressingBytesNameTheModes : Prop :=
  (∀ (d : Half) (v : Bool) (n : Fin 8),
    decodeAm 0 d v = .ok .stack ∧
    decodeAm (BitVec.ofNat 8 (8 + n.val)) d v = .ok (.reg n) ∧
    decodeAm (BitVec.ofNat 8 (16 + n.val)) d v = .ok (.disp n d) ∧
    decodeAm (BitVec.ofNat 8 (24 + n.val)) d v = .ok (.postInc n) ∧
    decodeAm (BitVec.ofNat 8 (32 + n.val)) d false = .ok (.preDec n) ∧
    decodeAm (BitVec.ofNat 8 (32 + n.val)) d true = .error { vec := 1, cause := 3, addr := 0 }) ∧
  (∀ (am : Byte) (d : Half) (v : Bool), (1 ≤ am.toNat ∧ am.toNat ≤ 7) ∨ 40 ≤ am.toNat →
    decodeAm am d v = .error { vec := 1, cause := 3, addr := 0 }) ∧
  (∀ (t : Ctl) (n : Fin 8) (d : Half) (size : Nat) (a : Word) (xs : List Word),
    amAddr t .stack size (a :: xs) = a ∧ amUpdate t .stack size = t ∧
    amAddr t (.reg n) size xs = t.a[n] ∧ amUpdate t (.reg n) size = t ∧
    amAddr t (.disp n d) size xs = t.a[n] + d.signExtend 32 ∧ amUpdate t (.disp n d) size = t ∧
    amAddr t (.postInc n) size xs = t.a[n] ∧
    amUpdate t (.postInc n) size = { t with a := t.a.set n (t.a[n] + BitVec.ofNat 32 size) } ∧
    amAddr t (.preDec n) size xs = t.a[n] - BitVec.ofNat 32 size ∧
    amUpdate t (.preDec n) size = { t with a := t.a.set n (t.a[n] - BitVec.ofNat 32 size) })

/-- R177 and R178: where a scalar access of 1, 2 or 4 bytes lands, and what it raises elsewhere. -/
def Obligations.ScalarAccessesAreChecked : Prop :=
  ∀ (a : Word) (size : Nat), size ∈ [1, 2, 4] →
    (a.toNat % size ≠ 0 → place a size = .error { vec := 2, cause := 1, addr := a }) ∧
    (a.toNat % size = 0 →
      (a.toNat < 0x100000 → place a size = .ok (.plain a.toNat)) ∧
      (0x100000 ≤ a.toNat → a.toNat < 0x300000 → size ≠ 4 → place a size = .error { vec := 7, cause := 2, addr := a }) ∧
      (0x100000 ≤ a.toNat → a.toNat < 0x200000 → size = 4 → place a size = .ok (.setWin (a.toNat - 0x100000))) ∧
      (0x200000 ≤ a.toNat → a.toNat < 0x300000 → size = 4 → place a size = .ok (.clrWin (a.toNat - 0x200000))) ∧
      (0x300000 ≤ a.toNat → place a size = .error { vec := 7, cause := 1, addr := a }))

/-- R215: loads push the addressed byte, half-word or word, extended to 32 bits; IREAD reads a word of IMEM or traps. -/
def Obligations.LoadsPushTheAddressedBytes : Prop :=
  ∀ (c : Ch) (am : Byte) (d : Half),
    LoadsWith (.ldB c am d) c am d 1 (fun m a => (memByte m a).signExtend 32) ∧
    LoadsWith (.ldBu c am d) c am d 1 (fun m a => (memByte m a).zeroExtend 32) ∧
    LoadsWith (.ldH c am d) c am d 2 (fun m a => (memByte m (a + 1) ++ memByte m a).signExtend 32) ∧
    LoadsWith (.ldHu c am d) c am d 2 (fun m a => (memByte m (a + 1) ++ memByte m a).zeroExtend 32) ∧
    LoadsWith (.ldW c am d) c am d 4
      (fun m a => memByte m (a + 3) ++ memByte m (a + 2) ++ memByte m (a + 1) ++ memByte m a) ∧
    (∀ s ch f ia rest, Fetches s c 1 ch → fillData ch 1 = .ok f → f.ctl.ds = ia :: rest →
      (ia.toNat % 4 ≠ 0 → TrapsAfter (.iread c) s c ch f { vec := 2, cause := 1, addr := ia }) ∧
      (ia.toNat % 4 = 0 → 0x80000 ≤ ia.toNat → TrapsAfter (.iread c) s c ch f { vec := 7, cause := 1, addr := ia }) ∧
      (ia.toNat % 4 = 0 → ia.toNat < 0x80000 → markUe f.mem.imarks (ia.toNat / 4) = true →
        TrapsAfter (.iread c) s c ch f { vec := 7, cause := 4, addr := ia }) ∧
      (ia.toNat % 4 = 0 → ia.toNat < 0x80000 → markUe f.mem.imarks (ia.toNat / 4) = false → ∀ r,
        pushData (imemCheck { f with ctl := { f.ctl with ds := rest } } (ia.toNat / 4)) [memWord f.mem.imem ia.toNat]
          = .ok r → Completes (.iread c) s c 1 r))

/-- R177 and R215: the stores complete with the memory that their checked place gives, and update An. -/
def Obligations.StoresComplete : Prop :=
  ∀ (c : Ch) (am : Byte) (d : Half),
    StoresWith (.stB c am d) c am d 1 ∧ StoresWith (.stH c am d) c am d 2 ∧ StoresWith (.stW c am d) c am d 4

/-- R177 and R215, and the frame of memory: a store to a plain place replaces exactly its bytes; a word store in the
bit-set or bit-clear window sets or clears exactly the bits of x in its word; every other byte reads as before,
and the memory stays in its canonical form. The frame of ST.B, ST.H and ST.W in one step (R177, R215): every byte
of DMEM outside the stored ones reads as before, the stored ones hold the bytes of x, or in a window those of the
word with the bits of x set or clear, and IMEM, the other channels and the hub are unchanged. The premise on the
core's cells is the bound of R172. -/
def Obligations.StoresWriteExactlyTheirBytes : Prop :=
  (∀ (ch q : Chan) (p : Place) (size : Nat) (x : Word),
     Memory.wf ch.mem.dmem = true → placeAddr p % size = 0 → storePlace ch p size x = .ok q →
     Memory.wf q.mem.dmem = true ∧
     (∀ a, p = .plain a → size ∈ [1, 2, 4] → ∀ k, memByte q.mem.dmem k = storedByte ch.mem.dmem a size x k) ∧
     (∀ a, p = .setWin a → size = 4 →
       ∀ k, memByte q.mem.dmem k = storedByte ch.mem.dmem a 4 (memWord ch.mem.dmem a ||| x) k) ∧
     (∀ a, p = .clrWin a → size = 4 →
       ∀ k, memByte q.mem.dmem k = storedByte ch.mem.dmem a 4 (memWord ch.mem.dmem a &&& ~~~x) k)) ∧
  (∀ (s : State) (c : Ch) (am : Byte) (d : Half) (i : Instr) (size : Nat) (ch f q : Chan) (m : AMode) (p : Place),
     (i, size) ∈ [(.stB c am d, 1), (.stH c am d, 2), (.stW c am d, 4)] →
     Memory.wf (s.chan c).mem.dmem = true → (s.chan c).ctl.ds.length ≤ 8 → Fetches s c (amLen 1 am) ch →
     decodeAm am d false = .ok m → fillData ch (amPops m + 1) = .ok f →
     let u := { f with ctl := { f.ctl with ds := f.ctl.ds.drop (amPops m + 1) } }
     let x := f.ctl.ds.getD (amPops m) 0
     let stored := match p with
       | .plain _ => x
       | .setWin a => memWord (s.chan c).mem.dmem a ||| x
       | .clrWin a => memWord (s.chan c).mem.dmem a &&& ~~~x
     place (amAddr u.ctl m size (f.ctl.ds.take (amPops m + 1))) size = .ok p → storePlace u p size x = .ok q →
     ∃ t, exec i s = .next t ∧ t.hub = s.hub ∧ (∀ e, e ≠ c → t.chan e = s.chan e) ∧
       (t.chan c).mem.imem = (s.chan c).mem.imem ∧
       ∀ k, memByte (t.chan c).mem.dmem k = storedByte (s.chan c).mem.dmem (placeAddr p) size stored k)

/-- R215: IN and INS push the register's value and latch the high half of a split one; OUT and OUTS have the effect of the
write. An unassigned address raises DACCESS with cause IO (R178); a repeated OUT to a register of R186, or OUTS when its
address is one, raises UNDEF with cause PREFIX and the return address of the REP. A wake that an OUT to TB_CMPCTL brings
reaches the pair partner too (R419). -/
def Obligations.InAndOutReachTheRegisters : Prop :=
  ∀ (c : Ch) (s : State) (ch : Chan),
    (∀ i : Half, Fetches s c 3 ch →
      (∀ v r, ioRead s.hub ch i.toNat = some v →
        pushData (ioLatch s.hub i.toNat ch) [v] = .ok r → Completes (.ioIn c i) s c 3 r) ∧
      (ioRead s.hub ch i.toNat = none → Traps (.ioIn c i) s c ch { vec := 7, cause := 3, addr := i.zeroExtend 32 })) ∧
    (∀ f a rest, Fetches s c 1 ch → fillData ch 1 = .ok f → f.ctl.ds = a :: rest →
      let u := { f with ctl := { f.ctl with ds := rest } }
      (∀ v r, a.toNat < 0x10000 → ioRead s.hub u a.toNat = some v → pushData (ioLatch s.hub a.toNat u) [v] = .ok r →
        Completes (.ins c) s c 1 r) ∧
      (0x10000 ≤ a.toNat ∨ ioRead s.hub u a.toNat = none → TrapsAfter (.ins c) s c ch f { vec := 7, cause := 3, addr := a })) ∧
    (∀ (i : Half) f x rest, Fetches s c 3 ch → fillData ch 1 = .ok f → f.ctl.ds = x :: rest →
      ¬ (ch.ctl.repact = true ∧ repBarred i.toNat = true) →
      (ioAssigned s.hub f i.toNat = false →
        TrapsAfter (.ioOut c i) s c ch f { vec := 7, cause := 3, addr := i.zeroExtend 32 }) ∧
      (∀ r, ioAssigned s.hub f i.toNat = true → outBlocked f i.toNat x = false → asksDoze i.toNat x = false →
        outEffect s.hub i.toNat x { f with ctl := { f.ctl with ds := rest } } = .ok r →
        exec (.ioOut c i) s = .next (shareWake c s (s.setChan c (afterInstr (advance r 3)))) ∧
          (r.pwr.woken = f.pwr.woken → Completes (.ioOut c i) s c 3 r))) ∧
    (∀ i : Half, Fetches s c 3 ch → ch.ctl.repact = true → repBarred i.toNat = true →
      Traps (.ioOut c i) s c ch { vec := 1, cause := 4, addr := 0, back := 3 }) ∧
    (∀ f, Fetches s c 1 ch → fillData ch 1 = .ok f → ch.ctl.repact = true → repBarred (f.ctl.ds.headD 0).toNat = true →
      TrapsAfter (.outs c) s c ch f { vec := 1, cause := 4, addr := 0, back := 3 }) ∧
    (∀ f g a x rest, Fetches s c 1 ch → fillData ch 1 = .ok f →
      ¬ (ch.ctl.repact = true ∧ repBarred (f.ctl.ds.headD 0).toNat = true) →
      fillData ch 2 = .ok g → g.ctl.ds = a :: x :: rest → f.ctl.ds.headD 0 = a →
      (0x10000 ≤ a.toNat ∨ ioAssigned s.hub g a.toNat = false →
        TrapsAfter (.outs c) s c ch g { vec := 7, cause := 3, addr := a }) ∧
      (∀ r, a.toNat < 0x10000 → ioAssigned s.hub g a.toNat = true → outBlocked g a.toNat x = false →
        asksDoze a.toNat x = false → outEffect s.hub a.toNat x { g with ctl := { g.ctl with ds := rest } } = .ok r →
        exec (.outs c) s = .next (shareWake c s (s.setChan c (afterInstr (advance r 1)))) ∧
          (r.pwr.woken = g.pwr.woken → Completes (.outs c) s c 1 r)))

/-! ### Control flow -/

/-- R181: the sixteen conditions. After the flags of a − b (R180, R211), the conditions of R181 compare a with b:
equality, unsigned and signed order. -/
def Obligations.ConditionsTestTheirFlags : Prop :=
  (∀ t : Ctl,
     ((List.range 16).map fun k => condHolds t (BitVec.ofNat 4 k)) =
       [t.z, !t.z, t.c, !t.c, t.n, !t.n, t.v, !t.v, t.c && !t.z, !t.c || t.z, t.n == t.v, t.n != t.v,
         !t.z && t.n == t.v, t.z || t.n != t.v, t.vff, !t.vff]) ∧
  (∀ (a b : Word) (t : Ctl),
     let u := (diffOf a b true t).2
     (condHolds u 0 = true ↔ a = b) ∧ (condHolds u 1 = true ↔ a ≠ b) ∧
     (condHolds u 2 = true ↔ b.toNat ≤ a.toNat) ∧ (condHolds u 3 = true ↔ a.toNat < b.toNat) ∧
     (condHolds u 8 = true ↔ b.toNat < a.toNat) ∧ (condHolds u 9 = true ↔ a.toNat ≤ b.toNat) ∧
     (condHolds u 10 = true ↔ b.toInt ≤ a.toInt) ∧ (condHolds u 11 = true ↔ a.toInt < b.toInt) ∧
     (condHolds u 12 = true ↔ b.toInt < a.toInt) ∧ (condHolds u 13 = true ↔ a.toInt ≤ b.toInt))

/-- R217 and R218: jumps go to their targets and branches to theirs when the condition holds; a taken transfer fires no
loop (R183). -/
def Obligations.JumpsAndBranchesGoToTheirTargets : Prop :=
  ∀ (c : Ch) (s : State) (ch : Chan),
    (∀ i : BitVec 24, Fetches s c 4 ch →
      (i.toNat < 2 ^ 19 → Transfers (.jmp c i) s c { ch with ctl := { ch.ctl with pc := i.zeroExtend 32 } }) ∧
      (2 ^ 19 ≤ i.toNat → Traps (.jmp c i) s c ch { vec := 1, cause := 3, addr := 0 })) ∧
    (∀ f a rest r, Fetches s c 1 ch → fillData ch 1 = .ok f → f.ctl.ds = a :: rest →
      pushData { f with ctl := { f.ctl with ds := rest, pc := a } } [] = .ok r → Transfers (.jmps c) s c r) ∧
    (∀ (cc : BitVec 4) (i : Half), Fetches s c 3 ch →
      (condHolds ch.ctl cc = true →
        Transfers (.bcc c cc i) s c { ch with ctl := { ch.ctl with pc := ch.ctl.pc + 3 + i.signExtend 32 } }) ∧
      (condHolds ch.ctl cc = false → Completes (.bcc c cc i) s c 3 ch))

/-- R182, R183 and R184: a level whose LE the next sequential address is loops while LC is above 1 and closes at 1, when the
next level is checked at once; LOOP opens a level or passes over a body that runs 0 times; ENDL closes one. The model's
choice (log 21, DEDUCED): a full nest refuses LOOP for a count of 0 too. -/
def Obligations.LoopsFireAtTheirEnd : Prop :=
  (∀ (ch : Chan) (a : Word), ch.ctl.depth ≤ 4 →
    let l := levelAt ch.ctl (ch.ctl.depth - 1)
    (ch.ctl.depth = 0 ∨ l.le.zeroExtend 32 ≠ a → arrive ch a = { ch with ctl := { ch.ctl with pc := a } }) ∧
    (0 < ch.ctl.depth → l.le.zeroExtend 32 = a →
      (1 < l.lc.toNat → arrive ch a = { ch with ctl :=
        { setLevel ch.ctl (ch.ctl.depth - 1) { l with lc := l.lc - 1 } with pc := l.ls.zeroExtend 32 } }) ∧
      (l.lc = 1 → arrive ch a = arrive { ch with ctl := { ch.ctl with depth := ch.ctl.depth - 1 } } a))) ∧
  (∀ (c : Ch) (s : State) (ch : Chan) (i : Half), Fetches s c 3 ch →
    let ls := ch.ctl.pc + 3
    let le := ls + i.zeroExtend 32
    (i = 0 ∨ 0x80000 < le.toNat → Traps (.loop c i) s c ch { vec := 1, cause := 3, addr := 0 }) ∧
    (∀ f n rest, i ≠ 0 → le.toNat ≤ 0x80000 → fillData ch 1 = .ok f → f.ctl.ds = n :: rest →
      let u := { f with ctl := { f.ctl with ds := rest } }
      (4 ≤ f.ctl.depth → TrapsAfter (.loop c i) s c ch f { vec := 4, cause := 5, addr := 0 }) ∧
      (f.ctl.depth < 4 → n = 0 → Transfers (.loop c i) s c (arrive u le)) ∧
      (f.ctl.depth < 4 → n ≠ 0 → Transfers (.loop c i) s c { u with ctl :=
        { setLevel u.ctl f.ctl.depth { ls := ls.setWidth 20, le := le.setWidth 20, lc := n } with
          depth := f.ctl.depth + 1, pc := ls } }))) ∧
  (∀ (c : Ch) (s : State) (ch : Chan), Fetches s c 1 ch →
    (ch.ctl.depth = 0 → Traps (.endl c) s c ch { vec := 4, cause := 9, addr := 0 }) ∧
    (0 < ch.ctl.depth → Transfers (.endl c) s c
      (arrive { ch with ctl := { ch.ctl with depth := ch.ctl.depth - 1 } }
        ((levelAt ch.ctl (ch.ctl.depth - 1)).le.zeroExtend 32))))

/-- R185, R186 and R187: REP loads REPC and REPACT, or passes over the instruction when n is 0, or traps PREFIX, by the
instruction that IMEM holds after it; each repetition that completes counts REPC down, and the last one clears REPACT and
goes on. -/
def Obligations.RepRepeatsTheNextInstruction : Prop :=
  (∀ (c : Ch) (s : State) (ch : Chan) (n : Half) (i : Instr) (len : Nat), Fetches s c 3 ch →
    readInstr c (memBytes ch.mem.imem (ch.ctl.pc + 3).toNat 6) = some (i, len) →
    let listed := (∃ t, i = .jmp c t) ∨ i = .jmps c ∨ (∃ t m, i = .call c t m) ∨ (∃ m, i = .calls c m) ∨ i = .ret c ∨
      i = .reti c ∨ i = .brk c ∨ (∃ x, i = .loop c x) ∨ i = .endl c ∨ (∃ x, i = .rep c x) ∨ (∃ k x, i = .bcc c k x) ∨
      ∃ a : Half, i = .ioOut c a ∧ (a = 0x100 ∨ a = 0x110 ∨ a = 0x111 ∨ (0x114 ≤ a.toNat ∧ a.toNat ≤ 0x11F))
    (listed → Traps (.rep c n) s c ch { vec := 1, cause := 4, addr := 0 }) ∧
    (¬ listed → n = 0 → Transfers (.rep c n) s c (arrive { ch with ctl := { ch.ctl with repc := 0, repact := false } }
      (ch.ctl.pc + 3 + BitVec.ofNat 32 len))) ∧
    (¬ listed → n ≠ 0 → Transfers (.rep c n) s c
      { ch with ctl := { ch.ctl with repc := n, repact := true, pc := ch.ctl.pc + 3 } })) ∧
  (∀ (ch : Chan) (len : Nat),
    (ch.ctl.repact = false → advance ch len = arrive ch (ch.ctl.pc + BitVec.ofNat 32 len)) ∧
    (ch.ctl.repact = true → 1 < ch.ctl.repc.toNat →
      advance ch len = { ch with ctl := { ch.ctl with repc := ch.ctl.repc - 1 } }) ∧
    (ch.ctl.repact = true → ch.ctl.repc = 1 →
      advance ch len = arrive { ch with ctl := { ch.ctl with repc := 0, repact := false } }
        (ch.ctl.pc + BitVec.ofNat 32 len)))

/-- R175 and R217: CALL and CALLS push the saved items in their order, the frame word and the return address, and jump;
mask bit 8 empties the loop nest. The return address and the nest are those after a loop that fires (R183). -/
def Obligations.CallsPushTheirFrame : Prop :=
  ∀ (c : Ch) (s : State) (ch : Chan) (mask : Half),
    let frame := fun (t : Ctl) =>
      ((List.range 8).filter fun k => mask.getLsbD k).map (fun k => t.a.toList.getD k 0) ++
        (if mask.getLsbD 8 then nestBlock t else []) ++ (if mask.getLsbD 9 then [BitVec.ofNat 32 t.vl] else []) ++
        (if mask.getLsbD 10 then [statusWord t &&& 31] else []) ++
        (if mask.getLsbD 11 then [t.fpctl.zeroExtend 32] else []) ++ [mask.zeroExtend 32, t.pc]
    (∀ (i : BitVec 24), Fetches s c 6 ch →
      (2 ^ 19 ≤ i.toNat ∨ 2 ^ 12 ≤ mask.toNat → Traps (.call c i mask) s c ch { vec := 1, cause := 3, addr := 0 }) ∧
      (∀ q, i.toNat < 2 ^ 19 → mask.toNat < 2 ^ 12 →
        let u := arrive ch (ch.ctl.pc + 6)
        pushReturn u (frame u.ctl) = .ok q → Transfers (.call c i mask) s c { q with ctl := { q.ctl with
          depth := if mask.getLsbD 8 then 0 else q.ctl.depth, pc := i.zeroExtend 32 } })) ∧
    (Fetches s c 3 ch →
      (2 ^ 12 ≤ mask.toNat → Traps (.calls c mask) s c ch { vec := 1, cause := 3, addr := 0 }) ∧
      (∀ f a rest q, mask.toNat < 2 ^ 12 → fillData ch 1 = .ok f → f.ctl.ds = a :: rest →
        let u := arrive { f with ctl := { f.ctl with ds := rest } } (f.ctl.pc + 3)
        pushReturn u (frame u.ctl) = .ok q → Transfers (.calls c mask) s c { q with ctl := { q.ctl with
          depth := if mask.getLsbD 8 then 0 else q.ctl.depth, pc := a } }))

/-- R175 and R176: a RET that meets the frame of a CALL, with the frame in core, returns to the address the CALL
pushed, takes the frame off the return stack, restores every item that the mask names and keeps the callee's value
of the others. R176 and R195: RET and RETI complete where the frame passes its check, and otherwise trap STACK
FRAME and leave the return stack as it was. -/
def Obligations.ReturnsRestoreOrRefuseTheirFrame : Prop :=
  (∀ (ch q k : Chan) (mask : Half) (len : Nat) (target : Word),
     let u := arrive ch (nextPc ch len)
     u.ctl.bounded → k.ctl.bounded → mask.toNat < 2 ^ 12 →
     u.ctl.rs.length + (callFrame u.ctl mask).length + 1 ≤ 16 →
     callTo len mask ch target = .ok q → k.ctl.rs = q.ctl.rs →
     ∃ r, returnCall k = .ok r ∧ r.ctl.pc = u.ctl.pc ∧ r.ctl.rs = u.ctl.rs ∧ r.ctl.ds = k.ctl.ds ∧ r.mem = k.mem ∧
       (∀ n : Fin 8, r.ctl.a[n] = if mask.getLsbD n.val then u.ctl.a[n] else k.ctl.a[n]) ∧
       (r.ctl.depth = if mask.getLsbD 8 then u.ctl.depth else k.ctl.depth) ∧
       (mask.getLsbD 8 = true → ∀ j, j < u.ctl.depth → levelAt r.ctl j = levelAt u.ctl j) ∧
       (r.ctl.vl = if mask.getLsbD 9 then u.ctl.vl else k.ctl.vl) ∧
       ([r.ctl.n, r.ctl.z, r.ctl.c, r.ctl.v, r.ctl.vff] = if mask.getLsbD 10
         then [u.ctl.n, u.ctl.z, u.ctl.c, u.ctl.v, u.ctl.vff] else [k.ctl.n, k.ctl.z, k.ctl.c, k.ctl.v, k.ctl.vff]) ∧
       (mask.getLsbD 11 = true → fld u.ctl.fpctl 0 3 ≤ 4 → r.ctl.fpctl = u.ctl.fpctl) ∧
       (mask.getLsbD 11 = false → r.ctl.fpctl = k.ctl.fpctl)) ∧
  (∀ (c : Ch) (s : State) (ch : Chan), Fetches s c 1 ch →
     (∀ r, returnCall ch = .ok r → Transfers (.ret c) s c r) ∧
     (∀ r, returnTrap ch = .ok r → Transfers (.reti c) s c r) ∧
     (∀ ret w q, popReturn ch 2 = .ok ([ret, w], q) →
       (2 ^ 12 ≤ w.toNat → TrapsAfter (.ret c) s c ch q { vec := 4, cause := 8, addr := 0 }) ∧
       (w ≠ 0x00010B00 → TrapsAfter (.reti c) s c ch q { vec := 4, cause := 8, addr := 0 })))

/-- R194: taking a trap pushes the trap frame, which may reach 256 bytes past RSP_LIMIT, empties the loop nest, clears REPC,
IE and REPACT, sets INMCHK for vector 10, writes TRAP_CAUSE and TRAP_ADDR and continues at 4 times the vector. -/
def Obligations.TrapEntryPushesItsFrame : Prop :=
  ∀ (ch q : Chan) (i : TrapInfo) (async : Bool) (ret : Word),
    ¬ (ch.ctl.inmchk = true ∧ (1 ≤ i.vec ∧ i.vec ≤ 7 ∨ i.vec = 10)) → i.vec < 2 ^ 8 → i.cause < 2 ^ 8 →
    pushReturnTo (ch.ctl.rspLimit.toNat + 256) ch
      (nestBlock ch.ctl ++ [BitVec.ofNat 32 ch.ctl.vl, ch.ctl.fpctl.zeroExtend 32, ch.ctl.repc.zeroExtend 32,
        statusWord ch.ctl, 0x00010B00, ret]) = .ok q →
    takeTrap ch i async ret = { q with
      ctl := { q.ctl with
        depth := 0, repc := 0, ie := false, repact := false, inmchk := q.ctl.inmchk || i.vec == 10
        pc := BitVec.ofNat 32 (4 * i.vec) }
      ev := { q.ev with
        trapCause := BitVec.ofNat 32 (i.vec + 2 ^ 8 * i.cause + if async then 2 ^ 16 else 0)
        trapAddr := i.addr, wait := none } }

/-- R194 and R195: after a trap whose frame is in core, RETI with the return stack as the entry left it restores the PC, the
nest, STATUS, REPC, FPCTL and VL, whatever the handler did to them, and leaves YPEND and the A registers as they are. -/
def Obligations.RetiRestoresWhatTheTrapSaved : Prop :=
  ∀ (ch k : Chan) (i : TrapInfo) (async : Bool) (ret : Word),
    ch.ctl.bounded → fld ch.ctl.fpctl 0 3 ≤ 4 → ch.ctl.rs.length + 3 * ch.ctl.depth + 7 ≤ 16 →
    ¬ (ch.ctl.inmchk = true ∧ (1 ≤ i.vec ∧ i.vec ≤ 7 ∨ i.vec = 10)) →
    k.ctl.rs = (takeTrap ch i async ret).ctl.rs →
    ∃ r, returnTrap k = .ok r ∧ r.mem = k.mem ∧ r.ctl.pc = ret ∧ r.ctl.rs = ch.ctl.rs ∧ r.ctl.depth = ch.ctl.depth ∧
      (∀ j, j < ch.ctl.depth → levelAt r.ctl j = levelAt ch.ctl j) ∧ r.ctl.vl = ch.ctl.vl ∧
      r.ctl.fpctl = ch.ctl.fpctl ∧ r.ctl.repc = ch.ctl.repc ∧
      statusWord { r.ctl with ypend := false } = statusWord { ch.ctl with ypend := false } ∧
      r.ctl.ypend = k.ctl.ypend ∧ r.ctl.a = k.ctl.a ∧ r.ctl.ds = k.ctl.ds ∧ r.ctl.vs = k.ctl.vs

/-- R194, R196 and R217: BRK takes BREAK with cause BRK, its return address where execution continues; a pending event that
can be taken is taken at the boundary, cleared, with the next instruction's address (R193); while INMCHK is 1 a cause of
vectors 1 to 7 or 10 fences the channel with code 0x16. -/
def Obligations.TrapsAreTakenAtBoundaries : Prop :=
  (∀ (c : Ch) (s : State) (ch : Chan), Fetches s c 1 ch →
    let u := arrive ch (ch.ctl.pc + 1)
    Transfers (.brk c) s c (takeTrap u { vec := 11, cause := 1, addr := 0 } false u.ctl.pc)) ∧
  (∀ (c : Ch) (s : State) (i : TrapInfo), chanRunning (s.chan c) = true → (s.chan c).ev.wait = none →
    (s.chan c).pwr.reqHost = false → takeable (s.chan c) = some i → exec (.asyncTrapEntry c) s =
      .next (s.setChan c (takeTrap (clearTaken (s.chan c) i) i true (s.chan c).ctl.pc))) ∧
  (∀ (ch : Chan) (i : TrapInfo) (async : Bool) (ret : Word), ch.ctl.inmchk = true →
    (1 ≤ i.vec ∧ i.vec ≤ 7 ∨ i.vec = 10) → ch.cstate ≠ .fenced →
    (takeTrap ch i async ret).cstate = .fenced ∧ (takeTrap ch i async ret).ctl = ch.ctl ∧
      ∃ r ∈ (takeTrap ch i async ret).err.src.queue ++ (takeTrap ch i async ret).err.src.waiting, r.code = 0x16 ∧ r.fence = true)

/-- R193: the order in which pending events are taken: MCHK while INMCHK is 0, a debug BREAK, a single step, then, while IE
is 1, ARRAY, PLANE_HOLD, and the lowest line that is pending and enabled. The model's choice (log 24, DEDUCED): of several
MCHK causes the first that became pending is taken, and a debug BREAK before a single step. -/
def Obligations.PendingEventsAreTakenInOrder : Prop :=
  ∀ ch : Chan,
    (∀ m rest, ch.ev.mchk = m :: rest → ch.ctl.inmchk = false →
      takeable ch = some { vec := 10, cause := m, addr := 0 }) ∧
    ((ch.ev.mchk = [] ∨ ch.ctl.inmchk = true) →
      (ch.ev.brkDebug = true → takeable ch = some { vec := 11, cause := 2, addr := 0 }) ∧
      (ch.ev.brkDebug = false → ch.ev.brkStep = true → takeable ch = some { vec := 11, cause := 3, addr := 0 }) ∧
      (ch.ev.brkDebug = false → ch.ev.brkStep = false →
        (ch.ctl.ie = false → takeable ch = none) ∧
        (ch.ctl.ie = true →
          (∀ a, ch.ev.array = some a → takeable ch = some { vec := 8, cause := a.toNat, addr := 0 }) ∧
          (ch.ev.array = none → ch.ev.hold = true → takeable ch = some { vec := 9, cause := 0x0B, addr := 0 }) ∧
          (ch.ev.array = none → ch.ev.hold = false →
            (ch.ev.intPend &&& ch.ev.intEn = 0 → takeable ch = none) ∧
            (∀ k, k < 32 → (ch.ev.intPend &&& ch.ev.intEn).getLsbD k = true →
              (∀ j, j < k → (ch.ev.intPend &&& ch.ev.intEn).getLsbD j = false) →
              takeable ch = some { vec := 16 + k, cause := 0, addr := 0 })))))

/-! ### Floating-point, short-vector and long-vector instructions -/

/-- R219: the floating-point instructions deliver the shared policy's result in binary32 and OR its flags into FPCTL. -/
def Obligations.FloatInstructionsDeliverTheSharedPolicy : Prop :=
  ∀ c : Ch,
    Pops2 (.fadd c) c 1 (fun a b t => fpOf (fAdd (fmtS t.fpctl) a.toNat b.toNat) t) ∧
    Pops2 (.fsub c) c 1 (fun a b t => fpOf (fSub (fmtS t.fpctl) a.toNat b.toNat) t) ∧
    Pops2 (.fmul c) c 1 (fun a b t => fpOf (fMul (fmtS t.fpctl) a.toNat b.toNat) t) ∧
    Pops2 (.fdiv c) c 1 (fun a b t => fpOf (fDiv (fmtS t.fpctl) a.toNat b.toNat) t) ∧
    Pops1 (.fsqrt c) c 1 (fun a t => fpOf (fSqrt (fmtS t.fpctl) a.toNat) t) ∧
    Pops3 (.fma c) c 1 (fun a b d t => fpOf (fFma (fmtS t.fpctl) a.toNat b.toNat d.toNat) t) ∧
    Pops1 (.fneg c) c 1 (fun a t =>
      if nan32 a then ([0x7FC00000], withFp (if snan32 a then 1 else 0) t) else ([a ^^^ 0x80000000], t)) ∧
    Pops1 (.fabs c) c 1 (fun a t =>
      if nan32 a then ([0x7FC00000], withFp (if snan32 a then 1 else 0) t) else ([a &&& 0x7FFFFFFF], t)) ∧
    Pops2 (.fmin c) c 1 (fun a b t => fpOf (fMinMax (fmtS t.fpctl) true a.toNat b.toNat) t) ∧
    Pops2 (.fmax c) c 1 (fun a b t => fpOf (fMinMax (fmtS t.fpctl) false a.toNat b.toNat) t) ∧
    Pops1 (.fcvtSW c) c 1 (fun a t => fpOf (fFromInt (fmtS t.fpctl) a.toInt 0) t) ∧
    Pops1 (.fcvtSWu c) c 1 (fun a t => fpOf (fFromInt (fmtS t.fpctl) a.toNat 0) t) ∧
    Pops1 (.fcvtWS c) c 1 (fun a t => fpOf (fpToRange t.fpctl (-2147483648) 2147483647 a.toNat) t) ∧
    Pops1 (.fcvtWuS c) c 1 (fun a t => fpOf (fpToRange t.fpctl 0 4294967295 a.toNat) t) ∧
    Pops1 (.fcvtSH c) c 1 (fun a t => fpOf (fConvert (fmtH t.fpctl) (fmtS t.fpctl) (a.extractLsb' 0 16).toNat) t) ∧
    Pops1 (.fcvtHS c) c 1 (fun a t => fpOf (fConvert (fmtS t.fpctl) (fmtH t.fpctl) a.toNat) t) ∧
    Pops1 (.fcvtSBf c) c 1 (fun a t => fpOf (fConvert (fmtBF t.fpctl) (fmtS t.fpctl) (a.extractLsb' 0 16).toNat) t) ∧
    Pops1 (.fcvtBfS c) c 1 (fun a t => fpOf (fConvert (fmtS t.fpctl) (fmtBF t.fpctl) a.toNat) t)

/-- R220: FCMP's flags by the relation of its operands, and NV for a signaling NaN only. -/
def Obligations.FcmpSetsFlagsByTheRelation : Prop :=
  ∀ c : Ch, Pops2 (.fcmp c) c 1 (fun a b t =>
    let x := fRead (fmtS t.fpctl) a.toNat
    let y := fRead (fmtS t.fpctl) b.toNat
    let u := withFp (x.2 ||| y.2 ||| if snan32 a || snan32 b then 1 else 0) t
    ([], match fOrder x.1 y.1 with
      | some .lt => { u with n := true, z := false, c := false, v := false }
      | some .eq => { u with n := false, z := true, c := true, v := false }
      | some .gt => { u with n := false, z := false, c := true, v := false }
      | none => { u with n := false, z := false, c := false, v := true }))

/-- R129: an operation with a NaN operand delivers the canonical NaN, and raises NV exactly for a signaling one;
beside NV only BD can be set. R130, R131 and R134 on binary32: division by zero, invalid operations, overflow by
rounding mode, and the sign of an exact zero sum. -/
def Obligations.NansAndFloatEdges : Prop :=
  (∀ (fp : BitVec 10) (a b : Word), (nan32 a || nan32 b) = true →
     (∀ f ∈ [fAdd, fSub, fMul, fDiv, fun q => fMinMax q true, fun q => fMinMax q false],
       (f (fmtS fp) a.toNat b.toNat).1 = 0x7FC00000 ∧
       (f (fmtS fp) a.toNat b.toNat).2 &&& 31 = if snan32 a || snan32 b then 1 else 0) ∧
     (nan32 a = true →
       fSqrt (fmtS fp) a.toNat = (0x7FC00000, if snan32 a then 1 else 0) ∧
       fConvert (fmtS fp) (fmtH fp) a.toNat = (0x7E00, if snan32 a then 1 else 0) ∧
       fConvert (fmtS fp) (fmtBF fp) a.toNat = (0x7FC0, if snan32 a then 1 else 0) ∧
       fpToRange fp (-2147483648) 2147483647 a.toNat = (0, 1) ∧ fpToRange fp 0 4294967295 a.toNat = (0, 1)) ∧
     (∀ d : Word, (fFma (fmtS fp) a.toNat b.toNat d.toNat).1 = 0x7FC00000)) ∧
  (∀ (fp : BitVec 10) (a : Word), nan32 a = false → a.extractLsb' 23 8 ≠ 0xFF → a.extractLsb' 23 8 ≠ 0 →
     fDiv (fmtS fp) a.toNat 0 = ((0x7F800000#32 ||| (a &&& 0x80000000)).toNat, 2) ∧
     fDiv (fmtS fp) a.toNat 0x80000000 = ((0x7F800000#32 ||| (~~~a &&& 0x80000000)).toNat, 2) ∧
     fMul (fmtS fp) 0x7F800000 a.toNat = ((0x7F800000#32 ||| (a &&& 0x80000000)).toNat, 0) ∧
     fDiv (fmtS fp) 0 0 = (0x7FC00000, 1) ∧
     fDiv (fmtS fp) 0x7F800000 0x7F800000 = (0x7FC00000, 1) ∧
     fMul (fmtS fp) 0 0x7F800000 = (0x7FC00000, 1) ∧
     fSub (fmtS fp) 0x7F800000 0x7F800000 = (0x7FC00000, 1) ∧
     (a.msb = true → fSqrt (fmtS fp) a.toNat = (0x7FC00000, 1)) ∧
     fSqrt (fmtS fp) 0x80000000 = (0x80000000, 0) ∧
     (fp.toNat % 8 ≤ 4 →
       fAdd (fmtS fp) 0x7F7FFFFF 0x7F7FFFFF = (if fp.toNat % 8 = 1 ∨ fp.toNat % 8 = 3 then 0x7F7FFFFF else 0x7F800000, 20) ∧
       fSub (fmtS fp) 0xFF7FFFFF 0x7F7FFFFF =
         (if fp.toNat % 8 = 1 ∨ fp.toNat % 8 = 2 then 0xFF7FFFFF else 0xFF800000, 20)) ∧
     fAdd (fmtS fp) a.toNat (a ^^^ 0x80000000).toNat = (if fp.toNat % 8 = 3 then 0x80000000 else 0, 0) ∧
     fSub (fmtS fp) a.toNat a.toNat = (if fp.toNat % 8 = 3 then 0x80000000 else 0, 0))

/-- R221: the short-vector instructions, lane by lane, and the dot products and permutations. -/
def Obligations.ShortVectorsWorkLaneByLane : Prop :=
  ∀ c : Ch,
    Pops2 (.addB4 c) c 1 (fun a b t => ([byBytes (fun x y => x + y) a b], t)) ∧
    Pops2 (.addH2 c) c 1 (fun a b t => ([byHalves (fun x y => x + y) a b], t)) ∧
    Pops2 (.subB4 c) c 1 (fun a b t => ([byBytes (fun x y => x - y) a b], t)) ∧
    Pops2 (.subH2 c) c 1 (fun a b t => ([byHalves (fun x y => x - y) a b], t)) ∧
    Pops2 (.addsB4 c) c 1 (fun a b t => ([byBytes (fun x y => clampLane 8 (x.toInt + y.toInt)) a b], t)) ∧
    Pops2 (.addsH2 c) c 1 (fun a b t => ([byHalves (fun x y => clampLane 16 (x.toInt + y.toInt)) a b], t)) ∧
    Pops2 (.addusB4 c) c 1 (fun a b t => ([byBytes (fun x y => BitVec.ofNat 8 (min 0xFF (x.toNat + y.toNat))) a b], t)) ∧
    Pops2 (.addusH2 c) c 1
      (fun a b t => ([byHalves (fun x y => BitVec.ofNat 16 (min 0xFFFF (x.toNat + y.toNat))) a b], t)) ∧
    Pops2 (.subsB4 c) c 1 (fun a b t => ([byBytes (fun x y => clampLane 8 (x.toInt - y.toInt)) a b], t)) ∧
    Pops2 (.subsH2 c) c 1 (fun a b t => ([byHalves (fun x y => clampLane 16 (x.toInt - y.toInt)) a b], t)) ∧
    Pops2 (.subusB4 c) c 1 (fun a b t => ([byBytes (fun x y => if x.ult y then 0 else x - y) a b], t)) ∧
    Pops2 (.subusH2 c) c 1 (fun a b t => ([byHalves (fun x y => if x.ult y then 0 else x - y) a b], t)) ∧
    Pops2 (.ceqB4 c) c 1 (fun a b t => ([byBytes (fun x y => if x = y then 0xFF else 0) a b], t)) ∧
    Pops2 (.ceqH2 c) c 1 (fun a b t => ([byHalves (fun x y => if x = y then 0xFFFF else 0) a b], t)) ∧
    Pops2 (.cgtB4 c) c 1 (fun a b t => ([byBytes (fun x y => if y.slt x then 0xFF else 0) a b], t)) ∧
    Pops2 (.cgtH2 c) c 1 (fun a b t => ([byHalves (fun x y => if y.slt x then 0xFFFF else 0) a b], t)) ∧
    Pops2 (.minsB4 c) c 1 (fun a b t => ([byBytes (fun x y => if x.slt y then x else y) a b], t)) ∧
    Pops2 (.minsH2 c) c 1 (fun a b t => ([byHalves (fun x y => if x.slt y then x else y) a b], t)) ∧
    Pops2 (.maxsB4 c) c 1 (fun a b t => ([byBytes (fun x y => if x.slt y then y else x) a b], t)) ∧
    Pops2 (.maxsH2 c) c 1 (fun a b t => ([byHalves (fun x y => if x.slt y then y else x) a b], t)) ∧
    Pops2 (.minuB4 c) c 1 (fun a b t => ([byBytes (fun x y => if x.ult y then x else y) a b], t)) ∧
    Pops2 (.minuH2 c) c 1 (fun a b t => ([byHalves (fun x y => if x.ult y then x else y) a b], t)) ∧
    Pops2 (.maxuB4 c) c 1 (fun a b t => ([byBytes (fun x y => if x.ult y then y else x) a b], t)) ∧
    Pops2 (.maxuH2 c) c 1 (fun a b t => ([byHalves (fun x y => if x.ult y then y else x) a b], t)) ∧
    Pops2 (.mulB4 c) c 1 (fun a b t => ([byBytes (fun x y => x * y) a b], t)) ∧
    Pops2 (.mulH2 c) c 1 (fun a b t => ([byHalves (fun x y => x * y) a b], t)) ∧
    Pops2 (.avguB4 c) c 1 (fun a b t => ([byBytes (fun x y => BitVec.ofNat 8 ((x.toNat + y.toNat + 1) / 2)) a b], t)) ∧
    Pops2 (.avguH2 c) c 1 (fun a b t => ([byHalves (fun x y => BitVec.ofNat 16 ((x.toNat + y.toNat + 1) / 2)) a b], t)) ∧
    Pops3 (.dotsB4 c) c 1 (fun acc a b t => ([acc + BitVec.ofInt 32
      (((List.range 4).map fun k => (a.extractLsb' (8 * k) 8).toInt * (b.extractLsb' (8 * k) 8).toInt).sum)], t)) ∧
    Pops3 (.dotsH2 c) c 1 (fun acc a b t => ([acc + BitVec.ofInt 32
      (((List.range 2).map fun k => (a.extractLsb' (16 * k) 16).toInt * (b.extractLsb' (16 * k) 16).toInt).sum)], t)) ∧
    Pops3 (.dotuB4 c) c 1 (fun acc a b t => ([acc + BitVec.ofNat 32
      (((List.range 4).map fun k => (a.extractLsb' (8 * k) 8).toNat * (b.extractLsb' (8 * k) 8).toNat).sum)], t)) ∧
    Pops3 (.dotuH2 c) c 1 (fun acc a b t => ([acc + BitVec.ofNat 32
      (((List.range 2).map fun k => (a.extractLsb' (16 * k) 16).toNat * (b.extractLsb' (16 * k) 16).toNat).sum)], t)) ∧
    (∀ i : Byte, Pops1 (.permB4 c i) c 2 (fun a t =>
      let pick := fun k => a.extractLsb' (8 * (i.extractLsb' (2 * k) 2).toNat) 8
      ([pick 3 ++ pick 2 ++ pick 1 ++ pick 0], t))) ∧
    (∀ i : Byte, i.toNat ≤ 3 → Pops1 (.permH2 c i) c 2 (fun a t =>
      let pick := fun k => a.extractLsb' (16 * (i.extractLsb' k 1).toNat) 16
      ([pick 1 ++ pick 0], t)))

/-- R188 and R227: SETVL, the vector stack, and the element-wise instructions. -/
def Obligations.LongVectorsWorkElementByElement : Prop :=
  ∀ c : Ch,
    Pops1 (.setvl c) c 2 (fun n t =>
      let m := min n.toNat 256
      ([BitVec.ofNat 32 m], { t with vl := m, vff := false })) ∧
    (∀ s ch f x rest r, Fetches s c 2 ch → fillData ch 1 = .ok f → f.ctl.ds = x :: rest → ch.ctl.vs.length < 8 →
      pushData { f with ctl := { f.ctl with
        ds := rest, vs := (Vector.ofFn fun n : Fin 256 => if n.val < f.ctl.vl then x else 0) :: f.ctl.vs } } [] = .ok r →
      Completes (.vsplat c) s c 2 r) ∧
    (∀ s ch f i rest v below r, Fetches s c 2 ch → fillData ch 1 = .ok f → f.ctl.ds = i :: rest → f.ctl.vs = v :: below →
      pushData { f with ctl := { f.ctl with ds := rest } } [v.toList.getD i.toNat 0] = .ok r →
      Completes (.vextr c) s c 2 r) ∧
    (∀ s ch v below, Fetches s c 2 ch → ch.ctl.vs = v :: below → below.length < 8 →
      let copy : Vector Word 256 := Vector.ofFn fun n => if n.val < ch.ctl.vl then v[n] else 0
      (below.length < 7 → Completes (.vdup c) s c 2 { ch with ctl := { ch.ctl with vs := copy :: v :: below } }) ∧
      Completes (.vdrop c) s c 2 { ch with ctl := { ch.ctl with vs := below } }) ∧
    (∀ s ch v w below, Fetches s c 2 ch → ch.ctl.vs = w :: v :: below → below.length < 7 →
      let copy : Vector Word 256 := Vector.ofFn fun n => if n.val < ch.ctl.vl then v[n] else 0
      Completes (.vswap c) s c 2 { ch with ctl := { ch.ctl with vs := v :: w :: below } } ∧
      (below.length < 6 → Completes (.vover c) s c 2 { ch with ctl := { ch.ctl with vs := copy :: w :: v :: below } })) ∧
    VecElems (.vfadd c) c 2 (fpElem fpAdd) ∧ VecElems (.vfsub c) c 2 (fpElem fpSub) ∧
    VecElems (.vfmul c) c 2 (fpElem fpMul) ∧ VecElems (.vfma c) c 3 (fpElem fpMa) ∧
    VecElems (.vfmin c) c 2 (fpElem fpMin) ∧ VecElems (.vfmax c) c 2 (fpElem fpMax) ∧
    VecElems (.vfneg c) c 1 (fpElem fpNeg) ∧ VecElems (.vfabs c) c 1 (fpElem fpAbs) ∧
    VecElems (.vcvtSW c) c 1 (fpElem fpFromW) ∧ VecElems (.vcvtWS c) c 1 (fpElem fpToW) ∧
    VecElems (.vadd c) c 2 (pairElem fun a b => a + b) ∧ VecElems (.vsub c) c 2 (pairElem fun a b => a - b) ∧
    VecElems (.vmul c) c 2 (pairElem fun a b => a * b) ∧ VecElems (.vand c) c 2 (pairElem fun a b => a &&& b) ∧
    VecElems (.vor c) c 2 (pairElem fun a b => a ||| b) ∧ VecElems (.vxor c) c 2 (pairElem fun a b => a ^^^ b)

/-- R228: VFREDSUM adds in element order under FPCTL, with the two short lengths; VREDADD adds modulo 2^32. -/
def Obligations.ReductionsAddInElementOrder : Prop :=
  ∀ (c : Ch) (s : State) (ch : Chan) (v : Vector Word 256) (below : List (Vector Word 256)) (r : Chan),
    Fetches s c 2 ch → ch.ctl.vs = v :: below → ch.ctl.vl ≤ 256 →
    let u := { ch with ctl := { ch.ctl with vs := below } }
    let add := fun (p : Nat × FFlags) (e : Word) =>
      ((fAdd (fmtS ch.ctl.fpctl) p.1 e.toNat).1, p.2 ||| (fAdd (fmtS ch.ctl.fpctl) p.1 e.toNat).2)
    (ch.ctl.vl = 0 → pushData u [0] = .ok r → Completes (.vfredsum c) s c 2 r) ∧
    (ch.ctl.vl = 1 → pushData u [v[0]] = .ok r → Completes (.vfredsum c) s c 2 r) ∧
    (1 < ch.ctl.vl →
      let x := (((v.toList.take ch.ctl.vl).drop 1).foldl add (v[0].toNat, 0))
      pushData { u with ctl := withFp x.2 u.ctl } [BitVec.ofNat 32 x.1] = .ok r → Completes (.vfredsum c) s c 2 r) ∧
    (pushData u [(v.toList.take ch.ctl.vl).foldl (fun p e => p + e) 0] = .ok r → Completes (.vredadd c) s c 2 r)

/-- R229 and R230: a vector load or store with no faulting element, from the addressed bytes on. R229 and R230: the
lowest faulting element decides; VLD and VST trap at it, and VLDFF stops short of it. R229 and R230: VLD, VLDFF
and VST complete when their address is in core, no element of theirs faults and the vector stack has room for the
entry, or holds it. -/
def Obligations.VectorAccessesMoveElementsOrFault : Prop :=
  (∀ (c : Ch) (am : Byte) (d : Half) (s : State) (ch f : Chan) (m : AMode), Fetches s c (amLen 2 am) ch →
     decodeAm am d true = .ok m → fillData ch (amPops m) = .ok f → ch.ctl.vl ≤ 256 →
     let u := { f with ctl := { f.ctl with ds := f.ctl.ds.drop (amPops m) } }
     let a := (amAddr u.ctl m 0 (f.ctl.ds.take (amPops m))).toNat
     let loaded := fun n : Nat => (Vector.ofFn fun k : Fin 256 => if k.val < n then memWord u.mem.dmem (a + 4 * k.val) else 0)
     (ch.ctl.vs.length < 8 → (∀ k < ch.ctl.vl, ¬ elemBad u (a + 4 * k) true) →
       let q := elemChecks u a ch.ctl.vl
       ∀ r, pushData { q with ctl := { amUpdate q.ctl m (4 * ch.ctl.vl) with
           vs := loaded ch.ctl.vl :: q.ctl.vs } } [] = .ok r →
         Completes (.vld c am d) s c (amLen 2 am) r ∧ Completes (.vldff c am d) s c (amLen 2 am) r) ∧
     (∀ v below, ch.ctl.vs = v :: below → ch.ctl.ds.length ≤ 8 → Memory.wf ch.mem.dmem = true →
       (a % 4 ≠ 0 → markUe u.mem.dmarks (a / 4) = false ∧ markUe u.mem.dmarks ((a + 4 * ch.ctl.vl) / 4) = false) →
       (∀ k < ch.ctl.vl, ¬ elemBad u (a + 4 * k) false) →
       ∃ r, exec (.vst c am d) s = .next (s.setChan c r) ∧
         ∀ x, memByte r.mem.dmem x =
           if a ≤ x ∧ x < a + 4 * ch.ctl.vl then (v.toList.getD ((x - a) / 4) 0).extractLsb' (8 * ((x - a) % 4)) 8
           else memByte f.mem.dmem x)) ∧
  (∀ (c : Ch) (am : Byte) (d : Half) (s : State) (ch f : Chan) (m : AMode) (k : Nat), Fetches s c (amLen 2 am) ch →
     decodeAm am d true = .ok m → fillData ch (amPops m) = .ok f → ch.ctl.vl ≤ 256 → k < ch.ctl.vl →
     let u := { f with ctl := { f.ctl with ds := f.ctl.ds.drop (amPops m) } }
     let a := (amAddr u.ctl m 0 (f.ctl.ds.take (amPops m))).toNat
     let cause := fun load => (elemFault u (a + 4 * k) load).getD 0
     (elemBad u (a + 4 * k) true → (∀ j < k, ¬ elemBad u (a + 4 * j) true) →
       (∃ e, TrapsAfter (.vld c am d) s c ch f
         { vec := 7, cause := cause true, addr := BitVec.ofNat 32 (a + 4 * k), ecc := e }) ∧
       (k = 0 → ∃ e, TrapsAfter (.vldff c am d) s c ch f { vec := 5, cause := 1, addr := BitVec.ofNat 32 a, ecc := e }) ∧
       (0 < k → ch.ctl.vs.length < 8 → ch.ctl.ds.length ≤ 8 → ∃ r, Completes (.vldff c am d) s c (amLen 2 am) r ∧ r.ctl =
         { amUpdate u.ctl m (4 * k) with
           vl := k, vff := true
           vs := (Vector.ofFn fun n : Fin 256 => if n.val < k then memWord u.mem.dmem (a + 4 * n.val) else 0)
             :: u.ctl.vs })) ∧
     (elemBad u (a + 4 * k) false → (∀ j < k, ¬ elemBad u (a + 4 * j) false) → ch.ctl.vs ≠ [] →
       ∃ e, TrapsAfter (.vst c am d) s c ch f
         { vec := 7, cause := cause false, addr := BitVec.ofNat 32 (a + 4 * k), ecc := e }) ∧
     (∀ load, (0x100000 < (a + 4 * k) % 2 ^ 32 + 4 →
         cause load = if (a + 4 * k) % 2 ^ 32 < 0x300000 then 2 else 1) ∧
       ((a + 4 * k) % 2 ^ 32 + 4 ≤ 0x100000 → elemBad u (a + 4 * k) load → cause load = 4))) ∧
  (∀ (c : Ch) (am : Byte) (d : Half) (s : State) (ch : Chan) (m : AMode),
     ctlReady (s.chan c) = true → fetchOk (s.chan c) (amLen 2 am) = .ok ch → decodeAm am d true = .ok m →
     amPops m ≤ ch.ctl.ds.length → ch.ctl.ds.length ≤ 8 → ch.ctl.vl ≤ 256 →
     let a := (amAddr { ch.ctl with ds := ch.ctl.ds.drop (amPops m) } m 0 (ch.ctl.ds.take (amPops m))).toNat
     (ch.ctl.vs.length < 8 → (∀ k < ch.ctl.vl, ¬ elemBad ch (a + 4 * k) true) → ∃ t,
       exec (.vld c am d) s = .next t ∧ exec (.vldff c am d) s = .next t ∧
       (t.chan c).ctl.ds = ch.ctl.ds.drop (amPops m) ∧ (t.chan c).ctl.vl = ch.ctl.vl ∧
       (t.chan c).ctl.vs = (Vector.ofFn fun k : Fin 256 =>
         if k.val < ch.ctl.vl then memWord ch.mem.dmem (a + 4 * k.val) else 0) :: ch.ctl.vs) ∧
     (∀ v below, ch.ctl.vs = v :: below → (∀ k < ch.ctl.vl, ¬ elemBad ch (a + 4 * k) false) → ∃ t,
       exec (.vst c am d) s = .next t ∧ (t.chan c).ctl.ds = ch.ctl.ds.drop (amPops m) ∧ (t.chan c).ctl.vs = below))

/-! ### Array, fence and interrupt-control instructions and their waits -/

/-- R198, R199 and R222: AOP queues the four cells at its address, waits for an entry while 64 ops are queued, and
traps on a bad address with nothing queued. R161 and R205: the operands of ARED and what each waits for. R161 and
R198: AOP completes when its address is in core and names four readable cells and an entry is free, and ARED when
its operand is in core and what it names has ended. -/
def Obligations.AopAndAredUseTheArrayQueue : Prop :=
  (∀ (c : Ch) (s : State) (ch f : Chan) (a : Word) (rest : List Word), Fetches s c 1 ch → fillData ch 1 = .ok f →
     f.ctl.ds = a :: rest →
     (a.toNat % 4 ≠ 0 → TrapsAfter (.aop c) s c ch f { vec := 2, cause := 1, addr := a }) ∧
     (a.toNat % 4 = 0 → a.toNat < 0x100000 → 0x100000 < a.toNat + 16 →
       TrapsAfter (.aop c) s c ch f { vec := 7, cause := 2, addr := 0x100000 }) ∧
     (a.toNat % 4 = 0 → 0x100000 ≤ a.toNat → a.toNat < 0x300000 →
       TrapsAfter (.aop c) s c ch f { vec := 7, cause := 2, addr := a }) ∧
     (a.toNat % 4 = 0 → 0x300000 ≤ a.toNat → TrapsAfter (.aop c) s c ch f { vec := 7, cause := 1, addr := a }) ∧
     (a.toNat % 4 = 0 → a.toNat + 16 ≤ 0x100000 → (∀ k < 4, markUe f.mem.dmarks (a.toNat / 4 + k) = false) →
       (64 ≤ f.seq.queue.length → Waits (.aop c) s c f .aop 1) ∧
       (f.seq.queue.length < 64 → ∃ r, Completes (.aop c) s c 1 r ∧ r.ctl = { f.ctl with ds := rest } ∧ r.mem.dmem = f.mem.dmem ∧
         r.seq = { f.seq with queue := f.seq.queue ++ [
           memWord f.mem.dmem (a.toNat + 12) ++ memWord f.mem.dmem (a.toNat + 8) ++ memWord f.mem.dmem (a.toNat + 4)
             ++ memWord f.mem.dmem a.toNat] }))) ∧
  (∀ (c : Ch) (s : State) (ch f : Chan) (n : Word) (rest : List Word), Fetches s c 1 ch → fillData ch 1 = .ok f →
     f.ctl.ds = n :: rest →
     let done := Completes (.ared c) s c 1 { f with ctl := { f.ctl with ds := rest } }
     let wait := Waits (.ared c) s c f .ared 1
     (n.toNat < 64 → if tagEnded f (n.extractLsb' 0 6) then done else wait) ∧
     (n = 0x100 → if f.lau.expect.toNat ≤ f.lau.rxCount.toNat then done else wait) ∧
     (n = 0x101 → if allEnded f then done else wait) ∧
     (64 ≤ n.toNat → n ≠ 0x100 → n ≠ 0x101 → TrapsAfter (.ared c) s c ch f { vec := 1, cause := 5, addr := 0 })) ∧
  (∀ (c : Ch) (s : State) (ch : Chan) (n : Word) (rest : List Word),
     ctlReady (s.chan c) = true → fetchOk (s.chan c) 1 = .ok ch → ch.ctl.ds = n :: rest →
     (n.toNat % 4 = 0 → n.toNat + 16 ≤ 0x100000 → (∀ k < 4, markUe ch.mem.dmarks (n.toNat / 4 + k) = false) →
       ch.seq.queue.length < 64 → ∃ t, exec (.aop c) s = .next t ∧ (t.chan c).ctl.ds = rest ∧
         (t.chan c).seq.queue = ch.seq.queue ++ [memWord ch.mem.dmem (n.toNat + 12) ++ memWord ch.mem.dmem (n.toNat + 8)
           ++ memWord ch.mem.dmem (n.toNat + 4) ++ memWord ch.mem.dmem n.toNat]) ∧
     ((n.toNat < 64 ∧ tagEnded ch (n.extractLsb' 0 6) = true) ∨ (n = 0x100 ∧ ch.lau.expect.toNat ≤ ch.lau.rxCount.toNat) ∨
         (n = 0x101 ∧ allEnded ch = true) →
       ∃ t, exec (.ared c) s = .next t ∧ (t.chan c).ctl.ds = rest ∧ (t.chan c).seq = ch.seq ∧ (t.chan c).lau = ch.lau))

/-- R106, R108, R199, R201, R223 and R224: the fences, YIELD, RESUME and the interrupt-control instructions complete
when what they wait for holds, and wait otherwise. A request that finds the array restoring or drawing latches has
its boundary after a number of words that the spec leaves open (R448, log 27). The model's choice (log 22,
DEDUCED): YIELD and RESUME check room for their result first, and YPEND lasts until a YIELD receives the status.
R199 and R200: a waiting instruction completes once what it waits for holds, pops its operands then, and takes
effect once. An OUT that its register holds back, or that requests DOZE, stalls with its operands in place (R200,
R417). The model's choice (log 23, DEDUCED): AOP reads its cells again when its wait ends. -/
def Obligations.FencesYieldsAndWaitsEndOnce : Prop :=
  (∀ (c : Ch) (s : State) (ch : Chan),
     (Fetches s c 1 ch →
       (if arrayEmpty ch = true ∧ ch.lau.roots = [] then Completes (.afence c) s c 1 ch
         else Waits (.afence c) s c ch .afence 1) ∧
       (let x := rfenceMark ch
        if rfenceDone x.1 x.2 then Completes (.rfence c) s c 1 { x.1 with mem := { x.1.mem with fetchBuf := [] } }
         else Waits (.rfence c) s c x.1 (.rfence x.2) 1)) ∧
     (Fetches s c 2 ch →
       Completes (.ei c) s c 2 { ch with ctl := { ch.ctl with ie := true } } ∧
       Completes (.di c) s c 2 { ch with ctl := { ch.ctl with ie := false } } ∧
       (if wfiEvent ch then Completes (.wfi c) s c 2 ch else Waits (.wfi c) s c ch .wfi 2) ∧
       (ch.ctl.ypend = false → (ch.trap.state = 1 ∨ ch.trap.state = 2) → ∀ r,
         pushData { ch with
           ctl := { ch.ctl with ypend := false }
           trap := { ch.trap with ystat := 1 }
           ev := { ch.ev with yieldAns := none } } [1] = .ok r → Completes (.yield c) s c 2 r) ∧
       (ch.ctl.ypend = false → ch.trap.state ≠ 1 → ch.trap.state ≠ 2 → ch.seq.cur = none → ∀ p, pushData ch [0] = .ok p →
         ∃ r, Completes (.yield c) s c 2 r ∧ r.ctl.ds.head? = some 2 ∧ r.trap.ystat = 2 ∧ r.seq.stop = true) ∧
       (ch.ctl.ypend = false → ch.trap.state ≠ 1 → ch.trap.state ≠ 2 → ch.seq.cur ≠ none → ch.trap.yreq = none →
         ch.ev.yieldAns = none → ∀ p x, pushData ch [0] = .ok p → ch.seq.cur = some x → ∃ k,
         Waits (.yield c) s c { ch with
           ctl := { ch.ctl with ypend := true }
           free := ch.free + 1
           trap := { ch.trap with yreq := some { ctl := true, mgmt := false, cycles := k } } } .yield 2 ∧
         (ch.trap.state = 3 → 1 ≤ k) ∧ k ≤ 3 ∧
         (ch.trap.state ≠ 3 → x.ucount ≠ 0 ∨ dRound x.descA ≠ 5 → k = 0)) ∧
       (∀ st, ch.ctl.ypend = true → ch.ev.yieldAns = some st → ∀ p r, pushData ch [0] = .ok p →
         pushData { ch with ctl := { ch.ctl with ypend := false }, ev := { ch.ev with yieldAns := none } } [st.zeroExtend 32]
           = .ok r → Completes (.yield c) s c 2 r) ∧
       (ch.ctl.ypend = true → ch.ev.yieldAns = none → ∀ p, pushData ch [0] = .ok p → Waits (.yield c) s c ch .yield 2) ∧
       (∀ r, ch.trap.state ≠ 2 → pushData { ch with trap := { ch.trap with rstat := 1 } } [1] = .ok r →
         Completes (.resume c) s c 2 r) ∧
       (ch.trap.state = 2 → ch.trap.save[0].getLsbD 28 = true →
         ∀ r, pushData { ch with trap := { ch.trap with rstat := 2 } } [2] = .ok r → Completes (.resume c) s c 2 r) ∧
       (ch.trap.state = 2 → ch.trap.save[0].getLsbD 28 = false → ∀ p, pushData ch [0] = .ok p →
         (ch.seq.cur ≠ none → Waits (.resume c) s c ch .resume 2) ∧
         (ch.seq.cur = none → ∀ r, pushData { ch with trap := { ch.trap with rstat := 0 } } [0] = .ok r →
           Completes (.resume c) s c 2 (startRestore r))))) ∧
  (∀ (c : Ch) (s : State) (n : Nat),
     let ch := s.chan c
     (InWait s c .aop n → ∀ a rest, ch.ctl.ds = a :: rest → a.toNat % 4 = 0 → a.toNat + 16 ≤ 0x100000 →
       (∀ k < 4, markUe ch.mem.dmarks (a.toNat / 4 + k) = false) → ch.seq.queue.length < 64 →
       ∃ r, WaitEnds (.aopQueueEntryFree c) s c n r ∧ r.ctl = { ch.ctl with ds := rest } ∧
         r.seq = { ch.seq with queue := ch.seq.queue ++ [
           memWord ch.mem.dmem (a.toNat + 12) ++ memWord ch.mem.dmem (a.toNat + 8) ++ memWord ch.mem.dmem (a.toNat + 4)
             ++ memWord ch.mem.dmem a.toNat] }) ∧
     (InWait s c .ared n → ∀ m rest, ch.ctl.ds = m :: rest → aredReady ch m = some true →
       WaitEnds (.aredWaitEnd c) s c n { ch with ctl := { ch.ctl with ds := rest } }) ∧
     (InWait s c .afence n → arrayEmpty ch = true → ch.lau.roots = [] → WaitEnds (.afenceWaitEnd c) s c n ch) ∧
     (∀ ws, InWait s c (.rfence ws) n → rfenceDone ch ws = true →
       WaitEnds (.rfenceWaitEnd c) s c n { ch with mem := { ch.mem with fetchBuf := [] } }) ∧
     (InWait s c .yield n → ∀ st r, ch.ev.yieldAns = some st →
       pushData { ch with ctl := { ch.ctl with ypend := false }, ev := { ch.ev with yieldAns := none } } [st.zeroExtend 32]
         = .ok r → WaitEnds (.yieldStatusKnown c) s c n r) ∧
     (InWait s c .resume n → ch.trap.state = 2 → ch.trap.save[0].getLsbD 28 = false → ch.seq.cur = none →
       ∀ r, pushData { ch with trap := { ch.trap with rstat := 0 } } [0] = .ok r →
         WaitEnds (.resumeStallEnd c) s c n (startRestore r)) ∧
     (∀ (a : Half) v st r, InWait s c (.out a v st) n → asksDoze a.toNat v = false → outBlocked ch a.toNat v = false →
       outEffect s.hub a.toNat v { ch with ctl := { ch.ctl with ds := ch.ctl.ds.drop (if st then 2 else 1) } } = .ok r →
       WaitEnds (.outStallEnd c) s c n r) ∧
     (∀ (a : Half) v st, InWait s c (.out a v st) n → asksDoze a.toNat v = true → ch.pwr.reqCtl = false →
       WaitEnds (.outStallEnd c) s c n { ch with ctl := { ch.ctl with ds := ch.ctl.ds.drop (if st then 2 else 1) } }) ∧
     (∀ (i : Half) f x rest, Fetches s c 3 f → f.ctl.ds = x :: rest → ¬ (f.ctl.repact = true ∧ repBarred i.toNat = true) →
       ioAssigned s.hub f i.toNat = true → outBlocked f i.toNat x = true →
       Waits (.ioOut c i) s c f (.out i x false) 3) ∧
     (∀ (i : Half) f x rest, Fetches s c 3 f → f.ctl.ds = x :: rest → ¬ (f.ctl.repact = true ∧ repBarred i.toNat = true) →
       ioAssigned s.hub f i.toNat = true → outBlocked f i.toNat x = false → asksDoze i.toNat x = true →
       Waits (.ioOut c i) s c (writePwrCtl x f) (.out i x false) 3) ∧
     (∀ f a x rest, Fetches s c 1 f → f.ctl.ds = a :: x :: rest → ¬ (f.ctl.repact = true ∧ repBarred a.toNat = true) →
       a.toNat < 0x10000 → ioAssigned s.hub f a.toNat = true →
       (outBlocked f a.toNat x = true → Waits (.outs c) s c f (.out (a.extractLsb' 0 16) x true) 1) ∧
       (outBlocked f a.toNat x = false → asksDoze a.toNat x = true →
         Waits (.outs c) s c (writePwrCtl x f) (.out (a.extractLsb' 0 16) x true) 1)) ∧
     (InWait s c .doze n → ch.pwr.reqCtl = false →
       exec (.outStallEnd c) s = .next (s.setChan c { ch with ev := { ch.ev with wait := none } })) ∧
     (ch.ev.wait = some { kind := .wfi, len := n } → memoriesClocked ch = true → wfiEvent ch = true →
       WaitEnds (.wfiWake c) s c n (wakeIdle ch)))

/-! ### The array: issue, words, traps, root effects -/

/-- R66 to R70: an op that passes the checks takes its step number and starts; a refused one stays at the head, stops
issue with its cause, and raises its trap. Plane memory in retention is woken first (R246). R67 and R109: what GO,
DROP, FLUSH and ABANDON do while the channel runs. -/
def Obligations.IssueAndQueueControl : Prop :=
  (∀ (c : Ch) (s : State) (q : Quad) (rest : List Quad),
     let ch := s.chan c
     mayIssue ch = true → ch.seq.queue = q :: rest →
     (ch.mem.planeRet = true → exec (.arrayOpIssue c) s =
       .next (s.setChan c { ch with mem := { ch.mem with planeRet := false, waking := true } })) ∧
     (ch.mem.planeRet = false →
       let f := fetchRoutine { ch with mem := { ch.mem with waking := false } } q
       (issueFault f q = none → ∃ r x, exec (.arrayOpIssue c) s = .next (s.setChan c r) ∧
         r.seq.queue = rest ∧ r.seq.stepcount = ch.seq.stepcount + 1 ∧ r.seq.cur = some x ∧ r.seq.waiting = false ∧
         x.word = q ∧ x.step = ch.seq.stepcount ∧ x.ucount = 0 ∧ x.stack = [] ∧ x.ulc = Vector.replicate 4 0 ∧
         (∀ k : Fin 4, x.pb[k] = BitVec.ofNat 13 (opPb q k.val))) ∧
       (∀ cause base, issueFault f q = some (cause, base) → ∃ r, exec (.arrayOpIssue c) s = .next (s.setChan c r) ∧
         r.seq.queue = q :: rest ∧ r.seq.stepcount = ch.seq.stepcount ∧ r.seq.cur = none ∧ r.seq.stop = true ∧
         r.seq.issueCause = BitVec.ofNat 20 (cause + 256 * opRoutine q + 262144 * base) ∧
         (if cause = 0x0B then r.ev.hold = true else r.ev.array = some (BitVec.ofNat 8 cause))))) ∧
  (∀ (c : Ch) (s : State),
     let ch := s.chan c
     chanRunning ch = true →
     let goes := fun (i : Instr) (g : Chan) =>
       (mayIssue g = false ∨ g.seq.queue = [] → exec i s = .next (s.setChan c g)) ∧
       (∀ q t, mayIssue g = true → g.seq.queue = q :: t →
         let f := fetchRoutine g q
         (issueFault f q = none → exec i s = .next (s.setChan c f)) ∧
         (∀ cause base, issueFault f q = some (cause, base) → ∃ r, exec i s = .next (s.setChan c r) ∧
           r.seq.queue = q :: t ∧ r.seq.cur = none ∧ r.seq.stop = true ∧
           r.seq.issueCause = BitVec.ofNat 20 (cause + 256 * opRoutine q + 262144 * base) ∧
           (if cause = 0x0B then r.ev.hold = true else r.ev.array = some (BitVec.ofNat 8 cause))))
     goes (.arrayQctlGo c) { ch with seq := { ch.seq with stop := false } } ∧
     (ch.seq.stop = true →
       goes (.arrayQctlDrop c) { ch with seq := { ch.seq with queue := ch.seq.queue.tail, stop := false } } ∧
       exec (.arrayQctlFlush c) s = .next (s.setChan c { ch with seq := { ch.seq with queue := [], stop := false } })) ∧
     (ch.seq.stop = false → exec (.arrayQctlDrop c) s = .next (s.setChan c ch) ∧
       exec (.arrayQctlFlush c) s = .next (s.setChan c ch)) ∧
     (ch.trap.state = 2 → ∃ r, exec (.arrayTrapCtlAbandon c) s = .next (s.setChan c r) ∧ r.trap.state = 0 ∧
       r.trap.holds = Vector.replicate 4 0) ∧
     (ch.trap.state ≠ 2 → exec (.arrayTrapCtlAbandon c) s = .next (s.setChan c ch)))

/-- R74, R75 and the LSRC codes of 03: where each SEQ code goes, with COND as it stands, for a word of a routine whose words
the microstore holds, the count that LDLOOP loads, and what END, TRAPPT, ENDTRAP and HALT do to the op. -/
def Obligations.SequencerCodesChooseTheNextWord : Prop :=
  ∀ (c : Ch) (s : State) (x : OpCtx) (w : Quad), PresentsWord s c x w →
    let ch := fetchUstore (leaveRestore (s.chan c)) x.upc.toNat
    WordExecutes ch x w →
    let cond := condTrue ch x (wCond w)
    let u := BitVec.ofNat 14 (wUaddr w)
    let n := (x.ulc.toList.getD (wLsel w) 0).toNat
    let goes := fun (i : Instr) (a : BitVec 14) => GoesOn i s c fun y =>
      y.upc = a ∧ y.stack = x.stack ∧ y.ucount = x.ucount + 1 ∧ y.word = x.word ∧ y.step = x.step
    (wSeq w = 0 → goes (.seqInc c) (x.upc + 1)) ∧
    (wSeq w = 1 → goes (.seqJmp c) u) ∧
    (wSeq w = 2 → goes (.seqJc c) (if cond then u else x.upc + 1)) ∧
    (wSeq w = 3 → goes (.seqJnc c) (if cond then x.upc + 1 else u)) ∧
    (wSeq w = 4 → GoesOn (.seqCall c) s c fun y => y.upc = u ∧ y.stack = (x.upc + 1) :: x.stack) ∧
    (wSeq w = 5 → ∀ a below, x.stack = a :: below →
      GoesOn (.seqRet c) s c fun y => y.upc = a ∧ y.stack = below) ∧
    (wSeq w = 6 → wLdec w = false → GoesOn (.seqLoop c) s c fun y =>
      if 1 < n then y.upc = u ∧ (y.ulc.toList.getD (wLsel w) 0).toNat = n - 1
      else y.upc = x.upc + 1 ∧ y.ulc.toList.getD (wLsel w) 0 = 0) ∧
    (wSeq w = 7 → goes (.seqLdloop c) (x.upc + 1)) ∧
    (let width : Int := if usesDesc ch x then dWidth x.descA else 0
     let expw : Int := if usesDesc ch x then dExpw x.descA else 0
     let source := [(wUaddr w : Int), width, expw, width - expw - 1, (opScalar x.word).toNat, (opScalar x.word).toNat / 4096,
       (x.ulc.toList.getD (wLsel2 w) 0).toNat, width - 1]
     wSeq w = 7 → wLdec w = false → GoesOn (.seqLdloop c) s c fun y => ∀ k : Fin 4,
       y.ulc[k] = if k.val = wLsel w then BitVec.ofInt 12 (source.getD (wLsrc w) 0) else x.ulc[k]) ∧
    (wSeq w = 8 → cond = true ∧ goes (.seqWait c) (x.upc + 1)) ∧
    (wSeq w = 9 → cond = true ∧ goes (.seqWaitj c) u) ∧
    (wSeq w = 10 → ∃ r, exec (.seqEnd c) s = .next (s.setChan c r) ∧ r.seq.cur = none ∧ r.seq.waiting = false) ∧
    (wSeq w = 11 → if cond then ∃ r, exec (.seqTrappt c) s = .next (s.setChan c r) ∧ r.seq.cur = none ∧
        r.seq.stop = true ∧ r.trap.cause = 6 ∧ (ch.trap.state ≠ 2 → r.trap.state = 1 ∧
          r.trap.save[0].extractLsb' 0 14 = x.upc + 1)
      else goes (.seqTrappt c) (x.upc + 1)) ∧
    (wSeq w = 12 → ∃ r, exec (.seqEndtrap c) s = .next (s.setChan c r) ∧ r.seq.cur = none ∧
      (cond = true → r.seq.stop = true ∧ r.ev.array = some 7)) ∧
    (wSeq w = 13 → ∃ r, exec (.seqHalt c) s = .next (s.setChan c r) ∧ r.seq.cur = none ∧ r.seq.stop = true ∧
      r.trap.cause = 8 ∧ (ch.trap.state ≠ 2 → r.trap.state = 1))

/-- R32, R33, R35 and R36: what one word's data path leaves in every PE: D where the write-enable rule holds, the carry
table's C, and the one latch that LATCH selects. -/
def Obligations.DataPathFollowsTheTables : Prop :=
  ∀ (ch : Chan) (x : OpCtx) (w : Quad) (i : Nat), i < 1048576 → sparseWf 0#1048576 ch.arr.planes = true →
    let a := (operandA ch x w).getLsbD i
    let b := (operandB ch x w).getLsbD i
    let index := 4 * a.toNat + 2 * b.toNat + (ch.arr.c.getLsbD i).toNat
    let d := (wFtab w).testBit index
    let m := ch.arr.m.getLsbD i
    let t := ch.arr.t.getLsbD i
    let r := dataPath ch x w
    r.arr.c.getLsbD i = (wCtab w).testBit index ∧
    r.arr.m.getLsbD i = (if wLatch w = 1 then d else if wLatch w = 2 then m && d else m) ∧
    r.arr.t.getLsbD i = (if wLatch w = 5 then d else if wLatch w = 6 then a else t) ∧
    (wXshift w = 0 →
      r.arr.x.getLsbD i = if wLatch w = 3 then d else if wLatch w = 4 then a else ch.arr.x.getLsbD i) ∧
    (∀ p, (planeOf r p).getLsbD i =
      if p = effPlane x (wD w) ∧ (wWen w = 1 ∨ wWen w = 2 ∧ m = true ∨ wWen w = 3 ∧ m = false ∨
        wWen w = 4 ∧ m = true ∧ ch.arr.c.getLsbD i = true ∨ wWen w = 5 ∧ m = true ∧ ch.arr.c.getLsbD i = false ∨
        6 ≤ wWen w ∧ m = true ∧ t = true) then d else (planeOf ch p).getLsbD i)

/-- R46, R48, R64, R87, R100, R106 and R448: ADMIT's words, a word that waits, the release strobe, the stall limit, the
boundary of a YIELD and the end of a trap save. -/
def Obligations.WaitsBoundariesAndSaves : Prop :=
  ∀ (c : Ch) (s : State),
    let ch := s.chan c
    (∀ x, presenting ch = some x → opRoutine x.word = 0 →
      (x.ucount + 1#64).toNat < max 1 (opScalar x.word).toNat →
        GoesOn (.arrayAdmit c) s c (fun y => y.ucount = x.ucount + 1)) ∧
    (∀ x, presenting ch = some x → opRoutine x.word = 0 → max 1 (opScalar x.word).toNat ≤ (x.ucount + 1#64).toNat →
        ∃ r, exec (.arrayAdmit c) s = .next (s.setChan c r) ∧ r.seq.cur = none) ∧
    (∀ x w, PresentsWord s c x w → wSeq w = 8 →
      let f := fetchUstore (leaveRestore ch) x.upc.toNat
      rangeFault f x w = none → wordReady f x w = false →
      ∃ r y, exec (.seqWait c) s = .next (s.setChan c r) ∧ r.seq.waiting = true ∧ r.seq.cur = some y ∧
        y.upc = x.upc ∧ y.ucount = x.ucount) ∧
    (∀ x w, PresentsWord s c x w → ch.seq.waiting = true → wSeq w = 8 → wordReady ch x w = true →
      WordExecutes (leaveRestore ch) x w → GoesOn (.edgeReleaseStrobe c) s c fun y =>
        y.upc = x.upc + 1 ∧ y.ucount = x.ucount + 1) ∧
    (∀ x, ch.seq.cur = some x → ch.seq.waiting = true → edgesMet ch (wordAt ch (opRoutine x.word) x.upc.toNat) = false →
      ch.arr.stallLimit ≠ 0 → chanRunning ch = true → exec (.edgeStallLimit c) s = .next (s.setChan c { ch with
        arr := { ch.arr with stall := true }, ev := { ch.ev with intPend := ch.ev.intPend ||| 2 } })) ∧
    (∀ y, ch.trap.yreq = some y → chanRunning ch = true → ch.trap.drain = none → captureDue ch = false →
      (ch.seq.cur = none → ∃ r, exec (.yieldBoundary c) s = .next (s.setChan c r) ∧ r.trap.yreq = none ∧
        r.trap.ystat = 2 ∧ r.seq.stop = true ∧ (y.ctl = true → r.ev.yieldAns = some 2)) ∧
      (∀ x w, 3 ≤ y.cycles → ch.seq.cur = some x → opRoutine x.word ≠ 0 → isBehav ch (opRoutine x.word) = false →
        w = wordAt ch (opRoutine x.word) x.upc.toNat → rangeFault (leaveRestore ch) x w = none → eccFault (leaveRestore ch) x w = none →
        ∃ r, exec (.yieldBoundary c) s = .next (s.setChan c r) ∧ r.seq.cur = none ∧ r.seq.stop = true ∧
          r.trap.cause = 9 ∧ (ch.trap.state ≠ 2 → r.trap.state = 1))) ∧
    (∀ d, ch.trap.drain = some d → ch.lau.roots = [] → ch.lau.gors = [] → ch.seq.badSig = 0 → chanRunning ch = true →
      ∃ r, exec (.trapSaveComplete c) s = .next (s.setChan c r) ∧ r.trap.drain = none ∧
        (d.nosave = false → r.trap.state = 2) ∧ (d.quiet = false → r.ev.array = some d.cause) ∧
        (d.quiet = true → r.ev.array = ch.ev.array))

/-- R55, R59, R60, R89, R403 and R406: signatures compared and a tun repaired, corrected words written back and a failing
column mapped out, and written planes read back, where a word that does not match is poisoned and reported with code 0x13. A
repair is recorded (log 75 for where). -/
def Obligations.TunsAreComparedAndRepaired : Prop :=
  (∀ (c : Ch) (s : State),
    let ch := s.chan c
    let leaves := fun (r : Chan) => ({ s.setChan c r with hub := recordRepairs c r s.hub } : State)
    (ch.seq.badSig = 0 → exec (.signatureCompare c 0) s = .next (leaves ch)) ∧
    (∀ t : Fin 64, chanRunning ch = true → ch.seq.badSig = 0 → ch.arr.tunMap.toList.getD (t.val / 8) 8 = 8 →
      ch.arr.spareBad.getLsbD (t.val / 8) = false → (∀ m ∈ ch.arr.marks, m.ue = false) →
      ∃ r, exec (.signatureCompare c (BitVec.ofNat 64 (2 ^ t.val))) s = .next (leaves r) ∧
        r.cstate = .run ∧ ∀ k : Fin 8, r.arr.tunMap[k] =
          if k.val = t.val / 8 then BitVec.ofNat 4 (t.val % 8) else ch.arr.tunMap[k]) ∧
    (∀ t : Fin 64, planeFree ch t.val = false → exec (.planeCeWriteback c t false) s = .next (leaves ch)) ∧
    (∀ (t : Fin 64) x, planeFree ch t.val = true →
      ch.arr.writeback.find? (fun y => decide (tunOfWord y.2 = t.val)) = some x →
      (∃ r, exec (.planeCeWriteback c t false) s = .next (leaves r) ∧ r.arr = { ch.arr with
        writeback := ch.arr.writeback.erase x
        marks := ch.arr.marks.filter fun m => !(decide (m.plane = x.1 ∧ m.word = x.2) && !m.ue) } ∧
        (ch.seq.cur ≠ none → tunIdle r t.val = false)) ∧
      (let u := 9 * (t.val / 8) + physPos ch (t.val / 8) (t.val % 8)
       let n := ch.arr.spareCols.toList.getD u 0
       n < 4 → ∃ r, exec (.planeCeWriteback c t true) s = .next (leaves r) ∧
        r.arr.writeback = ch.arr.writeback.erase x ∧ r.arr.spareCols.toList.getD u 0 = n + 1)) ∧
    (∀ (t : Fin 64) bad, planeFree ch t.val = true → verifyPending ch t.val = true → backPending ch t.val = false →
      let batch := (ch.arr.verify.filter fun v => decide (v / 4096 = t.val)).take 12
      ∃ r, exec (.guardedWriteVerify c t bad) s = .next (s.setChan c r) ∧
        r.arr.verify = ch.arr.verify.filter (fun v => !decide (v ∈ batch)) ∧
        (ch.seq.cur ≠ none → tunIdle r t.val = false) ∧
        ∀ b ∈ bad, tunOfWord (b % 16384) = t.val → 4096 * t.val + b / 16384 ∈ batch →
          (∃ m ∈ r.arr.marks, m.plane = b / 16384 ∧ m.word = b % 16384 ∧ m.ue = true) ∧ 2 ∈ r.ev.mchk ∧ r.err.ucc = true ∧
          ∃ q ∈ r.err.src.queue ++ r.err.src.waiting,
            q.cls = .ucc ∧ q.code = 0x13 ∧ q.unit = wordUnit ch (b % 16384) ∧ q.detail = BitVec.ofNat 32 (b / 16384)) ∧
    (∀ (t : Fin 64) bad, planeFree ch t.val = false ∨ verifyPending ch t.val = false ∨ backPending ch t.val = true →
      exec (.guardedWriteVerify c t bad) s = .next s)) ∧
  (∀ (c : Ch) (ch : Chan) (h : Hub),
    (repairsOf ch = recorded h c → recordRepairs c ch h = h) ∧
    ((recordNow h).counter.toNat + 1 < 2 ^ 32 → let k := recordRepairs c ch h
      recorded k c = repairsOf ch ∧ (∀ d, d ≠ c → recorded k d = recorded h d) ∧
        (recordNow k).sealedRec = (recordNow h).sealedRec ∧ k = { h with flash := k.flash } ∧
        ∀ i : Fin 2, k.flash[i].bytes = h.flash[i].bytes))

/-- R20, R77, R152 to R155, R162, R168 and R169: the next root effect takes place in order, 36 micro-cycles after its word,
and a global OR becomes valid 24 micro-cycles after its request; two halves of the tree that differ in GUARDED mode set
POISON and report code 0x12. XSEND makes one image, which goes into the own bank or to another channel as an IMAGE packet
(R164). While no op counts micro-cycles they pass as they may (the model's choice, log 3). -/
def Obligations.RootEffectsTakePlaceInOrder : Prop :=
  ∀ (c : Ch) (s : State) (tag : BitVec 6) (rest : List RootReq),
    let ch := s.chan c
    chanRunning ch = true → comparing ch = false →
    (∀ v more age, ch.lau.gors = { tag := tag, val := v, age := age } :: more →
      (24 ≤ age ∨ ch.seq.cur = none → ∃ r, exec (.gorValid c false) s = .next (s.setChan c r) ∧ r.lau.gors = more ∧
        ∀ k : Nat, r.lau.gor.getLsbD k = if k = tag.toNat then v else ch.lau.gor.getLsbD k) ∧
      (age < 24 → ch.seq.cur ≠ none → exec (.gorValid c false) s = .next s)) ∧
    (∀ op age, ch.lau.roots = { tag := tag, op := op, age := age } :: rest → 36 ≤ age ∨ ch.seq.cur = none →
      let leaves := fun (i : Instr) (l : Lau) => exec i s = .next (s.setChan c { ch with lau := l })
      (∀ v, op = .count v →
        (∃ r, exec (.rootCountAdd c false) s = .next (s.setChan c r) ∧ r.lau.la = ch.lau.la + v ∧
          r.lau.roots = rest ∧ r.lau.stat = ch.lau.stat) ∧
        (guarded ch = true → ∃ r, exec (.rootCountAdd c true) s = .next (s.setChan c r) ∧ r.lau.roots = rest ∧
          r.lau.stat = ch.lau.stat ||| 16 ∧ ∃ q ∈ r.err.src.queue ++ r.err.src.waiting, q.code = 0x12)) ∧
      (op = .clear → leaves (.rootClear c) { ch.lau with la := 0, stat := 0, roots := rest }) ∧
      (∀ f, op = .sflag f → leaves (.rootSflag c) { ch.lau with stat := ch.lau.stat ||| f.zeroExtend 5, roots := rest }) ∧
      (∀ p st, op = .snap p st → ∃ r, exec (.rootSnap c) s = .next (s.setChan c r) ∧ r.lau.roots = rest ∧
        r.lau.snap.extractLsb' 0 4352 = ch.lau.la ∧ r.lau.snap.extractLsb' 4352 5 = ch.lau.stat ∧
        r.lau.snap.extractLsb' 4384 16 = ch.keg.addr ∧ r.lau.snap.extractLsb' 4416 13 = p ∧
        r.lau.snap.extractLsb' 4429 2 = st ∧ (ch.seq.cur ≠ none → r.lau.shown = ch.lau.shown ++ [(tag, 2)])) ∧
      (op = .load → ∃ r, exec (.rootLoad c) s = .next (s.setChan c r) ∧ r.lau.roots = rest ∧
        r.lau.la = ch.lau.snap.extractLsb' 0 4352 ∧ r.lau.stat = ch.lau.snap.extractLsb' 4352 5) ∧
      (op = .merge → ∃ r, exec (.rootMerge c) s = .next (s.setChan c r) ∧ r.lau.roots = rest ∧
        r.lau.la = ch.lau.la + ch.lau.bank ∧ r.lau.stat = ch.lau.stat ||| ch.lau.bankStat ∧ r.lau.bank = 0 ∧
        r.lau.bankStat = 0 ∧ r.lau.rxCount = 0 ∧
        (ch.lau.rxCount.toNat < ch.lau.expect.toNat → r.lau.events.getLsbD 1 = true)) ∧
      (∀ p st, op = .xsend p st → (∀ d ∈ ch.lau.xdest.toList, d.getLsbD 16 = false) →
        leaves (.rootXsend c) { ch.lau with events := ch.lau.events ||| 1, roots := rest }) ∧
      (∀ p st d, op = .xsend p st → ch.lau.xdest.toList.filter (fun e => e.getLsbD 16) = [d] →
        d.extractLsb' 0 16 = ch.keg.addr → ∃ r, exec (.rootXsend c) s = .next (s.setChan c r) ∧
          r.lau.imageNo = ch.lau.imageNo + 1 ∧ r.lau.bank = ch.lau.bank + ch.lau.la ∧
          r.lau.bankStat = ch.lau.bankStat ||| ch.lau.stat ∧ r.lau.roots = rest) ∧
      (∀ p st d, op = .xsend p st → ch.lau.xdest.toList.filter (fun e => e.getLsbD 16) = [d] →
        d.extractLsb' 0 16 ≠ ch.keg.addr → ∃ m : LauImage,
          let n := ch.lau.imageNo + 1
          let dest := d.extractLsb' 0 16
          let id := 0x800 + n.toNat % 2048
          m.extractLsb' 0 4352 = ch.lau.la ∧ m.extractLsb' 4352 5 = ch.lau.stat ∧ m.extractLsb' 4384 16 = ch.keg.addr ∧
          m.extractLsb' 4400 16 = n ∧ m.extractLsb' 4416 13 = p ∧ m.extractLsb' 4429 2 = st ∧
          exec (.rootXsend c) s = .next (s.setChan c (enterRouter
            { ch with
              lau := { ch.lau with imageNo := n, roots := rest }
              rack := { ch.rack with xtags := ch.rack.xtags ++ [(id, dest)] } }
            { hdr := mkHeader ch.keg 3 9 false dest id 0 560 0 0 0 0, flits := payload 9 (natBytes 560 m.toNat) }))) ∧
      (∀ a b seed n, op = .round false a b seed n →
        leaves (.rootRound c) { ch.lau with
          lres := 0, lround := 32, roots := rest
          shown := if ch.seq.cur = none then ch.lau.shown else ch.lau.shown ++ [(tag, 12)] }) ∧
      (∀ a b seed n, op = .round true a b seed n → ∃ r, exec (.rootRound c) s = .next (s.setChan c r) ∧
        r.lau.roots = rest ∧ r.lau.la = ch.lau.la ∧
        r.lau.lround = (lroundOf ch.lau.la.toInt ch.lau.stat a b (drawBits seed 0 n).toNat).2))

/-! ### Memories, sparge, racking, HBM and inbound traffic -/

/-- R234, R240, R245 to R255, R285 and R406: write-backs, retention, the sparge steps, HBM scrub and refresh. A repair that
sparge makes is recorded (log 75 for where). -/
def Obligations.MemoriesAreScrubbedAndRetained : Prop :=
  ∀ (c : Ch) (s : State),
    let ch := s.chan c
    let leaves := fun (r : Chan) => ({ s.setChan c r with hub := recordRepairs c r s.hub } : State)
    (∀ (imem : Bool) (w : Nat), memoriesClocked ch = true → ∃ r, exec (.memCeWriteback c imem w) s = .next (s.setChan c r) ∧
      r.mem.imem = ch.mem.imem ∧ r.mem.dmem = ch.mem.dmem ∧
      ∀ m, m ∈ (if imem then r.mem.imarks else r.mem.dmarks) ↔
        m ∈ (if imem then ch.mem.imarks else ch.mem.dmarks) ∧ ¬ (m.word = w ∧ m.pend = true ∧ m.ue = false)) ∧
    (∀ e ∈ ch.rack.entries, usesImem e = true → chanRunning ch = true →
      exec (.imemWaitLimit c) s = .next (s.setChan c { ch with mem := { ch.mem with imemWait := true } })) ∧
    (chanRunning ch = true → retReady ch = true →
      exec (.planeRetSet c) s = .next (s.setChan c { ch with mem := { ch.mem with planeRet := true, waking := false } })) ∧
    (chanRunning ch = true → retReady ch = false → exec (.planeRetSet c) s = .next (s.setChan c ch)) ∧
    (chanRunning ch = true → ch.mem.planeRet = true →
      exec (.planeRetClear c) s =
        .next (s.setChan c { ch with mem := { ch.mem with planeRet := false, waking := true } })) ∧
    (∀ (mem : Fin 3) (g : BitVec 13), spargeAllowed ch mem.val = true → (spOf ch mem.val).phase = 0 →
      g.toNat < regionCount mem.val → ∃ r, exec (.spargeRegionStart c mem g) s = .next (s.setChan c r) ∧
        (spOf r mem.val).phase = 1 ∧ (spOf r mem.val).region = g ∧ (spOf r mem.val).done = 0) ∧
    (∀ (mem : Fin 3), spargeAllowed ch mem.val = true → spargeIdle ch mem.val = true →
      let sp := spOf ch mem.val
      let steps := fun (fails : List Nat) (P : Chan → Prop) => ∃ r,
        exec (.spargeStep c mem fails []) s = .next (leaves r) ∧ P r ∧
          r.mem.dmem = ch.mem.dmem ∧ r.mem.imem = ch.mem.imem ∧ r.arr.planes = ch.arr.planes
      (sp.phase = 1 → mem = 0 → sp.done < 64 → markUe ch.mem.dmarks (64 * sp.region.toNat + sp.done) = false →
        steps [] fun r => if sp.done = 63 then (spOf r 0).phase = 2 ∧ (spOf r 0).done = 0
          else (spOf r 0).phase = 1 ∧ (spOf r 0).done = sp.done + 1) ∧
      (sp.phase = 1 → mem = 0 → markUe ch.mem.dmarks (64 * sp.region.toNat + sp.done) = true →
        steps [] fun r => (spOf r 0).phase = 0 ∧ r.err.lastCode = 0x0C) ∧
      (sp.phase = 2 → steps [] fun r => (spOf r mem.val).phase = 3 ∧ (spOf r mem.val).done = 0) ∧
      (sp.phase = 3 → sp.done < 1279 → ∀ fails, steps fails fun r =>
        (spOf r mem.val).phase = 3 ∧ (spOf r mem.val).done = sp.done + 1) ∧
      (sp.phase = 3 → sp.done = 1279 → sp.found = [] →
        steps [] fun r => (spOf r mem.val).phase = 4 ∧ (spOf r mem.val).done = 0) ∧
      (sp.phase = 3 → sp.done = 1279 → sp.found ≠ [] → mem = 1 → ch.mem.usedI < 8 →
        steps [] fun r => (spOf r 1).phase = 0 ∧ r.mem.usedI = ch.mem.usedI + 1 ∧ r.mem.outI = false) ∧
      (sp.phase = 4 → sp.done < 64 → steps [] fun r => if sp.done = 63 then (spOf r mem.val).phase = 5 ∧ (spOf r mem.val).done = 0
        else (spOf r mem.val).phase = 4 ∧ (spOf r mem.val).done = sp.done + 1) ∧
      (sp.phase = 5 → steps [] fun r => (spOf r mem.val).phase = 0)) ∧
    (∀ (mem : Fin 3), (spOf ch mem.val).phase ≠ 0 → ∃ r, exec (.spargeStarved c mem) s = .next (s.setChan c r) ∧
      (spOf r mem.val).starved = true) ∧
    (∀ (u : Fin 72) a m, ch.seq.umarks.find? (fun x => decide (x.tun = u.val ∧ x.addr = a)) = some m → memoriesClocked ch = true →
      hamRead (decide (m.addr ≥ 16384)) (ustoreWord ch m.addr ^^^ m.flips) = some (ustoreWord ch m.addr, true) →
      ∃ r, exec (.spargeUstoreRead c u a) s = .next (leaves r) ∧ r.seq.umarks = ch.seq.umarks.erase m ∧
        r.err.ce = true) ∧
    (∀ b, memoriesClocked ch = true → b < 2 ^ 29 → hbmMark ch b = none →
      exec (.hbmScrubRead c b) s = .next (s.setChan c { ch with hbm := { ch.hbm with
        passes := ch.hbm.passes + (if b + 1 = 2 ^ 29 then 1 else 0) } })) ∧
    exec (.hbmRefresh c) s = .next s

/-- R21, R266, R267, R268, R270 and R276: queue pairs enable, take doorbells, are sampled, fetched from in arbitration
order and fire. -/
def Obligations.QueuePairsFollowTheirRegisters : Prop :=
  ∀ (c : Ch) (s : State) (q : Fin 256) (v : Word),
    let ch := s.chan c
    let p := qpAt ch q.val
    memoriesClocked ch = true →
    (p.enable = false → qpActive ch q.val = false → p.counted = 0 → ∃ r,
      exec (.rqCfgEnable c q v) s = .next (s.setChan c r) ∧
        (qpAt r q.val).log2 = v.extractLsb' 2 4 ∧ (qpAt r q.val).ordered = v.getLsbD 6 ∧
        (qpAt r q.val).dmemRing = v.getLsbD 1 ∧
        (v.getLsbD 1 = false → qpBase p % 4096 = 0 → v.extractLsb' 2 4 ≠ 0 → (qpAt r q.val).enable = true ∧
          (qpAt r q.val).sqHead = 0 ∧ (qpAt r q.val).cqTail = 0 ∧ (qpAt r q.val).sqdb = 0 ∧ (qpAt r q.val).phase = true) ∧
        (v.extractLsb' 2 4 = 0 → (qpAt r q.val).enable = false ∧ (qpAt r q.val).cfgerr = true)) ∧
    (p.enable = true → ∃ r, exec (.rqCfgDisable c q v) s = .next (s.setChan c r) ∧
      qpAt r q.val = { p with enable := false }) ∧
    ((v.extractLsb' 0 16).toNat < 2 ^ p.log2.toNat →
      (∃ r, exec (.rqSqdbWrite c q v) s = .next (s.setChan c r) ∧ qpAt r q.val = { p with sqdb := v.extractLsb' 0 16 }) ∧
      (∃ r, exec (.rqCqdbWrite c q v) s = .next (s.setChan c r) ∧ qpAt r q.val = { p with cqdb := v.extractLsb' 0 16 })) ∧
    (2 ^ p.log2.toNat ≤ (v.extractLsb' 0 16).toNat →
      ∃ r, exec (.rqSqdbWrite c q v) s = .next (s.setChan c r) ∧
        qpAt r q.val = { p with dberr := true, stopped := true }) ∧
    (p.enable = true → ∃ r, exec (.doorbellSample c q) s = .next (s.setChan c r) ∧
      qpAt r q.val = { p with tailS := p.sqdb, headS := p.cqdb }) ∧
    (arbiter ch = some q.val → p.dmemRing = true ∨ mayRead s = true → ∃ r e, exec (.sqEntryFetch c q) s = .next (s.setChan c r) ∧
      r.rack.entries = ch.rack.entries ++ [e] ∧ e.q = q.val ∧ e.slot = p.sqHead.toNat ∧
      (qpAt r q.val).sqHead = BitVec.ofNat 16 ((p.sqHead.toNat + 1) % 2 ^ p.log2.toNat)) ∧
    (p.counted ≠ 0 → p.irqEn = false → ∃ r, exec (.rqModTimerExpire c q) s = .next (s.setChan c r) ∧
      qpAt r q.val = { p with waited := max p.waited p.modTime.toNat }) ∧
    (p.counted ≠ 0 → p.irqEn = true → p.modTime ≠ 0 → ∃ r, exec (.rqModTimerExpire c q) s = .next (s.setChan c r) ∧
      qpAt r q.val = { p with counted := 0, waited := 0 }) ∧
    (p.counted = 0 → exec (.rqModTimerExpire c q) s = .next (s.setChan c ch))

/-- R62, R238, R258, R261, R264, R273, R274, R277, R278, R339, R352, R449 and R450: entries start, move their data,
retry and complete. COPY and FILL write the bytes of HBM, DMEM and IMEM, send host writes, or end with HOST_ERR
while Bus Master Enable is 0, stage parts for planes, and send one packet for at most 512 bytes to another
channel; a COPY from the host asks it, one from planes stages their parts. The two other results that the clauses
name rest on the model's choice: AUX after RTIMEOUT (log 49). R62: an idle micro-cycle of a tun writes the oldest
staged part of an inbound transfer that covers whole code words, and no PE outside the part changes. R450: a
dropped word of a completion entry lands. -/
def Obligations.RackingEntriesRunAndComplete : Prop :=
  (∀ (c : Ch) (s : State) (tag : Nat) (e : Entry),
     let ch := s.chan c
     memoriesClocked ch = true → entryAt ch tag = some e →
     let ends := fun (i : Instr) (st : Byte) (aux : Word) => ∃ r f, exec i s = .next (s.setChan c r) ∧
       entryAt r tag = some f ∧ f.state = .finished st 0 aux ∧ f.cells = e.cells
     (mayStart ch e = true →
       (cOp e.cells = 0 → ends (.rackNop c tag) 0 0) ∧
       (cOp e.cells = 3 → ends (.rackFence c tag) 0 0) ∧
       (cOp e.cells = 1 → wordLen e.cells = 0 → ends (.rackCopy c tag []) 0 0) ∧
       (cOp e.cells = 1 → cSrc e.cells = 3 → cDst e.cells = 3 → wordLen e.cells ≠ 0 → checkMill ch.mill e.cells = false →
         ch.mem.imarks = [] → ∃ r f, exec (.rackCopy c tag []) s = .next (s.setChan c r) ∧ entryAt r tag = some f ∧
           f.state = .finished 0 0 0 ∧ r.mem.imem = memSetBytes ch.mem.imem (cDstAddr e.cells)
             (memBytes ch.mem.imem (cSrcAddr e.cells) (wordLen e.cells))) ∧
       (cOp e.cells = 2 → wordLen e.cells = 0 → ends (.rackFill c tag []) 0 0) ∧
       (cOp e.cells = 2 → cDst e.cells = 3 → wordLen e.cells ≠ 0 → checkMill ch.mill e.cells = false →
         ∃ r f, exec (.rackFill c tag []) s = .next (s.setChan c r) ∧ entryAt r tag = some f ∧
           f.state = .finished 0 0 0 ∧
           r.mem.imem = memSetBytes ch.mem.imem (cDstAddr e.cells) (fillBytes e.cells))) ∧
     (let cs := e.cells
      let len := wordLen cs
      let p := planeEnd (cellOf cs 7) (cellOf cs 8)
      let bytesOf := fun (k : Chan) (space : Nat) =>
        if space = 1 then k.hbm.bytes else if space = 2 then k.mem.dmem else k.mem.imem
      let moves := fun (i : Instr) (bs : List Byte) =>
        (i = .rackCopy c tag [] ∧ cOp cs = 1 ∧ cSrc cs ∈ [1, 2, 3] ∧ (cSrc cs = 2 → cSrcAddr cs + len ≤ 0x100000) ∧
          bs = (List.range len).map fun k => memByte (bytesOf ch (cSrc cs)) (cSrcAddr cs + k)) ∨
        (i = .rackFill c tag [] ∧ cOp cs = 2 ∧ bs = (List.range len).map fun k =>
          (cPattern cs).extractLsb' (8 * (if hasPlanes cs then k % epSize p % 4 else k % 4)) 8)
      let does := fun (i : Instr) (P : Chan → Entry → Prop) => ∃ r f, exec i s = .next (s.setChan c r) ∧
        entryAt r tag = some f ∧ f.cells = cs ∧ P r f
      let one := fun (ch : Chan) => setEntry ch tag fun e => { e with state := .moving, buf := [], acks := 1 }
      let note := if cFlag cs 3 then (cCid cs).zeroExtend 32 ||| (BitVec.ofNat 32 e.q <<< 16) else 0
      mayStart ch e = true → len ≠ 0 → checkMill ch.mill cs = false →
      (∀ i bs, moves i bs → ch.mem.imarks = [] → ch.mem.dmarks = [] → ch.hbm.marks = [] →
        (cDst cs ∈ [1, 2, 3] → (cDst cs = 2 → cDstAddr cs + len ≤ 0x100000) → Memory.wf (bytesOf ch (cDst cs)) = true →
          does i fun r f => f.state = .finished 0 0 0 ∧ f.lost = e.lost ∧ ∀ a, memByte (bytesOf r (cDst cs)) a =
            if cDstAddr cs ≤ a ∧ a < cDstAddr cs + len then bs.getD (a - cDstAddr cs) 0
            else memByte (bytesOf ch (cDst cs)) a) ∧
        (cDst cs = 0 → (engineCtl ch).bme = false → ends i 5 0) ∧
        (let size := min 512 (128 * 2 ^ (engineCtl ch).maxPayload.toNat)
         cDst cs = 0 → (engineCtl ch).bme = true → throughPair ch = false →
         cDstAddr cs / size = (cDstAddr cs + len - 1) / size → does i fun r f => f.state = .finished 0 0 0 ∧
           r.fn = fnSend ch.fn (.write (cDstAddr cs) bs (engineCtl ch).relaxed)) ∧
        (cDst cs = 4 → p.fmt = false → does i fun r f => f.state = .moving ∧ r.arr.planes = ch.arr.planes ∧
          r.arr.staging = ch.arr.staging ++ stageParts p (bytesNat bs) (epSize p) 0 (epCount p) tag false) ∧
        (cDst cs = 6 → cDstAddr cs / 512 = (cDstAddr cs + len - 1) / 512 → exec i s = .next (s.setChan c (inject (one ch)
          { hdr := mkHeader ch.keg 1 ((len + 63) / 64) (cFlag cs 3) (cRch cs) tag (cDstAddr cs) len 0 0 0 note
            flits := payload 9 bs }))) ∧
        (cDst cs = 7 → len ≤ 512 → exec i s = .next (s.setChan c (inject (one ch)
          { hdr := mkHeader ch.keg 2 ((len + 63) / 64) (cFlag cs 3) (cRch cs) tag 0 len 0 (cellOf cs 7) (cellOf cs 8) note
            flits := payload 9 bs })))) ∧
      (cOp cs = 1 → cSrc cs = 0 → mayRead s = true → (engineCtl ch).bme = true → throughPair ch = false →
        let size := min 4096 (128 * 2 ^ (engineCtl ch).maxRead.toNat)
        let n := min len (size - cSrcAddr cs % size)
        does (.rackCopy c tag []) fun r f => f.state = .hostRead 0 n ∧ r.fn = fnSend ch.fn (.read tag (cSrcAddr cs) n)) ∧
      (cOp cs = 1 → cSrc cs = 0 → mayRead s = true → (engineCtl ch).bme = false → ends (.rackCopy c tag []) 5 0) ∧
      (cOp cs = 1 → cSrc cs = 4 → cDst cs ≠ 0 → does (.rackCopy c tag []) fun r f => f.state = .moving ∧
        r.arr.staging = ch.arr.staging ++ stageParts p 0 0 0 (epCount p) tag true)) ∧
     (∀ st reason aux, e.state = .finished st reason aux → postable ch e = true →
       ∃ r, exec (.transferComplete c tag []) s = .next (s.setChan c r) ∧ (∀ f ∈ r.rack.entries, f.tag ≠ tag)) ∧
     (∀ w rest, e.retry = w :: rest → ∃ r f, exec (.dmemWriteRetry c tag false) s = .next (s.setChan c r) ∧
       entryAt r tag = some f ∧ f.retry = rest ∧ f.lost = true ∧ r.mem.dmem = ch.mem.dmem) ∧
     (∀ w rest, e.retry = w :: rest → w.win = 0 → w.mask = 15 →
       ∃ r f, exec (.dmemWriteRetry c tag true) s = .next (s.setChan c r) ∧
       entryAt r tag = some f ∧ f.retry = rest ∧ f.lost = e.lost ∧
       r.mem.dmem = memSetWord ch.mem.dmem (4 * w.word) w.data) ∧
     (e.state = .reading → e.buf = [] → ch.err.mode ≠ 2 → ∀ bs, bs.length = 64 →
       ∃ r f, exec (.hostReadCompletion c tag (.data bs) []) s = .next (s.setChan c r) ∧ entryAt r tag = some f ∧
         f.cells.length = 16 ∧ f.cells = cellsOf bs) ∧
     (∀ bs, e.state = .hostRead 0 (wordLen e.cells) → bs.length = wordLen e.cells → bs ≠ [] → ch.err.mode ≠ 2 →
       cDst e.cells = 1 → ch.hbm.marks = [] → Memory.wf ch.hbm.bytes = true →
       ∃ r f, exec (.hostReadCompletion c tag (.data bs) []) s = .next (s.setChan c r) ∧ entryAt r tag = some f ∧
         f.state = .finished 0 0 0 ∧ ∀ a, memByte r.hbm.bytes a =
           if cDstAddr e.cells ≤ a ∧ a < cDstAddr e.cells + bs.length then bs.getD (a - cDstAddr e.cells) 0
           else memByte ch.hbm.bytes a) ∧
     (∀ off upto, e.state = .hostRead off upto → ch.err.mode ≠ 2 →
       ends (.hostReadCompletion c tag .abort []) 5 (BitVec.ofNat 32 off)) ∧
     (e.state = .moving → e.acks ≠ 0 → ch.rack.rtimeout ≠ 0 → tag < 0x800 →
       ∃ r f, exec (.rackRtimeoutExpire c tag) s = .next (s.setChan c r) ∧ entryAt r tag = some f ∧
         ∃ aux, f.state = .finished 8 0 aux)) ∧
  (∀ (c : Ch) (s : State),
     let ch := s.chan c
     memoriesClocked ch = true →
     (∀ (t : Fin 64) p, planeFree ch t.val = true → backPending ch t.val = false → verifyPending ch t.val = false →
       nextPart ch t.val = some p → p.out = false → sparseWf 0#1048576 ch.arr.planes = true →
       placeTun p.tun p.data &&& ~~~(placeTun p.tun p.mask) = 0 →
       ∃ r, exec (.planeStagingAccess c t) s = .next (s.setChan c r) ∧ r.arr.staging = ch.arr.staging.erase p ∧
         ∀ k i : Nat, i < 1048576 → (planeOf r k).getLsbD i =
           if k = p.plane ∧ (placeTun p.tun p.mask).getLsbD i = true then (placeTun p.tun p.data).getLsbD i
           else (planeOf ch k).getLsbD i) ∧
     (∀ (q : Fin 256) x w more, ch.rack.posting.find? (fun y => decide (y.q = q.val)) = some x → x.words = w :: more →
       more ≠ [] → ∃ r, exec (.cqWordRetry c q true) s = .next (s.setChan c r) ∧
         r.mem.dmem = memSetWord ch.mem.dmem (4 * w.1) w.2 ∧ r.mem.imem = ch.mem.imem))

/-- R62, R165, R277, R278, R279 and R290: a channel that runs takes the packets that reach it, and answers them. The bytes
of an HBM_WRITE are written; the parts of a PLANE_WRITE are staged, or under FMT 1 come to the Mill, and its answer waits
until they are written. A write that asks for a notification is held with it. The model's choices: a queue pair that has
been disabled since refuses the notification (log 47, DEDUCED), and what ends a transfer, and what a refused packet of one
leaves (log 124). -/
def Obligations.InboundPacketsAreTakenAndAnswered : Prop :=
  ∀ (c : Ch) (s : State) (p : Packet) (rest : List Packet),
    let ch := s.chan c
    memoriesClocked ch = true → ch.err.mode ≠ 2 →
    (ch.rack.inq = p :: rest →
      let f := wakeIdle (settleCredit { ch with rack := { ch.rack with inq := rest } } p)
      let wrote := fun (r : Chan) => r.rack.inq = rest ∧ (Memory.wf ch.hbm.bytes = true → ∀ a, memByte r.hbm.bytes a =
        if pAddr p ≤ a ∧ a < pAddr p + (payloadBytes p).length then (payloadBytes p).getD (a - pAddr p) 0
        else memByte ch.hbm.bytes a)
      (pKind p = 1 → hbmRefusal f p ≠ 0 →
        exec (.inboundHbmWrite c) s = .next (s.setChan c (respond (dropNote f p) p (hbmRefusal f p)))) ∧
      (pKind p = 1 → hbmRefusal f p = 0 → ch.hbm.marks = [] → payloadBytes p ≠ [] →
        (pNotify p = false → ∃ r, exec (.inboundHbmWrite c) s = .next (s.setChan c (respond r p 0)) ∧ wrote r) ∧
        (pNotify p = true → ch.rack.notes.find? (noteOf p) = none → ∃ r n, exec (.inboundHbmWrite c) s = .next (s.setChan c r) ∧
          wrote r ∧ n ∈ r.rack.notes ∧ n.pkt = p ∧ n.src = pSrc p ∧ n.cid = pCid p ∧ n.sqid = pSqid p ∧ n.bytes = pBytes p ∧
          n.refused = false)) ∧
      (pKind p = 2 → planeRefusal f p ≠ 0 →
        exec (.inboundPlaneWrite c) s = .next (s.setChan c (respond (dropNote f p) p (planeRefusal f p)))) ∧
      (pNotify p = false → dropNote f p = f) ∧
      (∀ n, pNotify p = true → f.rack.notes.find? (noteOf p) = some n → n.refused = false →
        ∃ g m, dropNote f p = respond g n.pkt 0 ∧ m ∈ g.rack.notes ∧ m.pkt = p ∧ m.refused = true) ∧
      (let e := packetEnd p
       let lo := pAddr p / epSize e
       let hi := (pAddr p + pBytes p) / epSize e
       let parts := stageParts e (bytesNat (payloadBytes p) * 2 ^ (8 * pAddr p)) (epSize e) lo hi (inboundKey p) false
       pKind p = 2 → planeRefusal f p = 0 →
        (e.fmt = false → parts ≠ [] → ∃ r, exec (.inboundPlaneWrite c) s = .next (s.setChan c r) ∧ r.rack.inq = rest ∧
          r.rack.held = ch.rack.held ++ [(p, 0)] ∧ r.arr.planes = ch.arr.planes ∧
          r.arr.staging = parts.foldl mergePart ch.arr.staging) ∧
        (e.fmt = true → lo < hi → ∃ r j, exec (.inboundPlaneWrite c) s = .next (s.setChan c r) ∧ r.rack.inq = rest ∧
          r.rack.held = ch.rack.held ++ [(p, 0)] ∧ r.arr = ch.arr ∧ r.mill.jobs = ch.mill.jobs ++ [j] ∧
          j.key = inboundKey p))) ∧
    (∀ (t : Fin 64) (part : Staged), planeFree ch t.val = true → backPending ch t.val = false → verifyPending ch t.val = false →
      nextPart ch t.val = some part → part.out = false → part.tag = inboundKey p → entryAt ch part.tag = none →
      ch.arr.staging = [part] → ch.rack.held = [(p, 0)] → ch.mill.jobs = [] → pNotify p = false →
      ∃ r, exec (.planeStagingAccess c t) s = .next (s.setChan c (respond r p 0)) ∧ r.arr.staging = [] ∧ r.rack.held = []) ∧
    (ch.rack.images = p :: rest → ∃ r, exec (.inboundImage c) s = .next (s.setChan c r) ∧
      r.lau.bank = ch.lau.bank + (packetImage p).extractLsb' 0 4352 ∧
      r.lau.bankStat = ch.lau.bankStat ||| (packetImage p).extractLsb' 4352 5 ∧ r.lau.la = ch.lau.la) ∧
    (∀ x, ch.rack.responses = p :: rest → 0x800 ≤ pTag p →
      ch.rack.xtags.find? (fun y => decide (y.1 = pTag p) && sameChannel ch.keg y.2 (pSrc p)) = some x →
      ∃ r, exec (.responseReceive c) s = .next (s.setChan c r) ∧ r.rack.responses = rest ∧
        r.rack.xtags = ch.rack.xtags.erase x ∧ (pReason p ≠ 0 → r.keg.xfail = true)) ∧
    (∀ n (ended : Bool) clash, ch.rack.notes.find? (noteWhole ch ended) = some n →
      let q := notifyQp ch
      let left := { ch with rack := { ch.rack with notes := ch.rack.notes.erase n } }
      (noteRefused ch n.pkt = true → exec (.inboundNotifyWrite c ended clash) s = .next (s.setChan c (respond left n.pkt 5))) ∧
      (noteRefused ch n.pkt = false → reserved ch q + 2 ≤ qpDepth (qpAt ch q) →
        ((qpAt ch q).dmemRing = true ∨ (engineCtl ch).bme = true) →
        let tail := (qpAt ch q).cqTail
        let last := decide (tail.toNat + 1 = qpDepth (qpAt ch q))
        let slot := cqSlot (qpAt ch q) tail.toNat
        let cells := [n.cid.zeroExtend 32 ||| ((qpAt ch q).sqHead.zeroExtend 32 <<< 16),
          0x10#32 ||| (n.sqid.zeroExtend 32 <<< 16), n.src.zeroExtend 32, if (qpAt ch q).phase then 1 else 0]
        ∃ r, exec (.inboundNotifyWrite c ended clash) s = .next (s.setChan c r) ∧ r.rack.notes = ch.rack.notes.erase n ∧
          qpAt r q = { qpAt ch q with cqTail := if last then 0 else tail + 1, phase := (qpAt ch q).phase ^^ last } ∧
          ((qpAt ch q).dmemRing = true → clash = [] → r.mem.dmem = (List.range 4).foldl (fun m k =>
            memSetWord m (4 * (slot / 4 + k)) (cells.getD k 0)) ch.mem.dmem)))

/-! ### Registers, the Mill, keg, time and DOZE -/

/-- R7, R49, R94, R118, R119, R150, R163, R166, R174, R197, R321 and R351: what a write of each register leaves, what a read
of a low half latches, and a slot that reaches an edge. R150's order of the two halves is log 36. That MGMT_MB_WRITE raises
its line and leaves its value in no register is the model's choice (log 88, UNVERIFIED). -/
def Obligations.RegisterWritesTakeEffect : Prop :=
  ∀ (c : Ch) (s : State) (v : Word),
    let ch := s.chan c
    let gives := fun (i : Instr) (r : Chan) => exec i s = .next (s.setChan c r)
    chanRunning ch = true →
    (arrayEmpty ch = true →
      ((∃ d < 4, v.extractLsb' (2 * d) 2 = 3) → gives (.arrayEdgeCtlWrite c v) ch) ∧
      ((∀ d < 4, v.extractLsb' (2 * d) 2 ≠ 3) →
        gives (.arrayEdgeCtlWrite c v) { ch with arr := { ch.arr with edgeCtl := v.setWidth 12 } })) ∧
    (fmtWritable ch = true →
      (∀ (n : Fin 32) (k : Fin 16), n.val = 2 * k.val →
        gives (.gfdWrite c n v) { ch with fmt := { ch.fmt with gfdA := ch.fmt.gfdA.set k v } }) ∧
      (∀ (n : Fin 32) (k : Fin 16), n.val = 2 * k.val + 1 →
        gives (.gfdWrite c n v) { ch with fmt := { ch.fmt with gfdB := ch.fmt.gfdB.set k v } }) ∧
      (∀ p ∈ [(0, 0x2842#32), (1, 0x4042), (2, 0x4082), (3, 0x5902), (4, 0x7A02)], ∀ k : Fin 16,
        v.extractLsb' 4 3 = BitVec.ofNat 3 p.1 → v.extractLsb' 0 4 = BitVec.ofNat 4 k.val → gives (.gfdPreset c v)
          { ch with fmt := { ch.fmt with gfdA := ch.fmt.gfdA.set k p.2, gfdB := ch.fmt.gfdB.set k 0 } }) ∧
      (5 ≤ (v.extractLsb' 4 3).toNat → gives (.gfdPreset c v) ch) ∧
      gives (.arraySeedLoWrite c v) { ch with fmt := { ch.fmt with seed := { ch.fmt.seed with held := some v } } } ∧
      gives (.arraySeedHiWrite c v) { ch with fmt := { ch.fmt with seed := { ch.fmt.seed with
        value := v ++ ch.fmt.seed.held.getD (ch.fmt.seed.value.setWidth 32), held := none } } } ∧
      gives (.arraySrEpochLoWrite c v) { ch with fmt := { ch.fmt with epoch := { ch.fmt.epoch with held := some v } } } ∧
      gives (.arraySrEpochHiWrite c v) { ch with fmt := { ch.fmt with epoch := { ch.fmt.epoch with
        value := v ++ ch.fmt.epoch.held.getD (ch.fmt.epoch.value.setWidth 32), held := none } } } ∧
      gives (.arraySrCtlMark c)
        { ch with fmt := { ch.fmt with epoch := { ch.fmt.epoch with value := ch.seq.stepcount } } }) ∧
    (lauWritable ch = true →
      (∀ n : Fin 140, ∃ r, gives (.lsnapWrite c n v) r ∧ ∀ m < 140,
        imageCell r.lau.snap m = if m = n.val then v else imageCell ch.lau.snap m) ∧
      (∀ n : Fin 8, gives (.lauterXdestWrite c n v)
        { ch with lau := { ch.lau with xdest := ch.lau.xdest.set n (v.setWidth 17) } }) ∧
      gives (.lrxExpectWrite c v) { ch with lau := { ch.lau with expect := v.setWidth 16 } }) ∧
    gives (.intSet c v) { ch with ev := { ch.ev with intPend := ch.ev.intPend ||| (v &&& 0xF000) } } ∧
    (ch.ctl.ds = [] →
      gives (.stackPointerWrite c 0x108 v) { ch with ctl := { ch.ctl with dsp := v &&& 0xFFFFC } } ∧
      gives (.stackPointerWrite c 0x109 v) { ch with ctl := { ch.ctl with dspBase := v &&& 0xFFFFC } } ∧
      gives (.stackPointerWrite c 0x10A v) { ch with ctl := { ch.ctl with dspLimit := v &&& 0xFFFFC } }) ∧
    (ch.ctl.rs = [] →
      gives (.stackPointerWrite c 0x10C v) { ch with ctl := { ch.ctl with rsp := v &&& 0xFFFFC } } ∧
      gives (.stackPointerWrite c 0x10D v) { ch with ctl := { ch.ctl with rspBase := v &&& 0xFFFFC } } ∧
      gives (.stackPointerWrite c 0x10E v) { ch with ctl := { ch.ctl with rspLimit := v &&& 0xFFFFC } }) ∧
    (Memory.wf ch.mem.dmem = true → ch.ctl.dsp.toNat % 4 = 0 →
      ch.ctl.dsp.toNat + 4 * ch.ctl.ds.length ≤ min ch.ctl.dspLimit.toNat 0x100000 →
      ∃ r, gives (.stackPointerWrite c 0x108 v) r ∧ r.ctl.ds = [] ∧ r.ctl.dsp = v &&& 0xFFFFC ∧
        ∀ k < ch.ctl.ds.length,
          memWord r.mem.dmem (ch.ctl.dsp.toNat + 4 * k) = ch.ctl.ds.reverse.getD k 0) ∧
    gives (.c2hMboxWrite c v) (chanVec { ch with host := { ch.host with c2h := v } } 256) ∧
    (linkUp s.hub = true → decodes ch.fn = true → s.hub.supply.rails = true → ch.err.mode ≠ 2 →
      gives (.h2cMboxWrite c v) (raiseLine { ch with host := { ch.host with h2c := v } } 5)) ∧
    (managed s.hub = true → restartable s.hub = true → gives (.mgmtMbWrite c v) (raiseLine ch 6)) ∧
    gives (.splitRegisterLowRead c 0x212)
      { ch with seq := { ch.seq with stepLatch := ch.seq.stepcount.extractLsb' 32 32 } } ∧
    gives (.splitRegisterLowRead c 0x262)
      { ch with fmt := { ch.fmt with seed := { ch.fmt.seed with latch := ch.fmt.seed.value.extractLsb' 32 32 } } } ∧
    gives (.splitRegisterLowRead c 0x264)
      { ch with fmt := { ch.fmt with epoch := { ch.fmt.epoch with latch := ch.fmt.epoch.value.extractLsb' 32 32 } } } ∧
    gives (.splitRegisterLowRead c 0x1C40)
      { ch with pwr := { ch.pwr with tbHi := s.hub.timebase.count.extractLsb' 32 32 } } ∧
    gives (.registerWrite c 0x104 v) { ch with ev := { ch.ev with intPend := ch.ev.intPend &&& ~~~v } } ∧
    gives (.registerWrite c 0x105 v) { ch with ev := { ch.ev with intEn := v } } ∧
    gives (.registerWrite c 0x202 v) { ch with arr := { ch.arr with stallLimit := v } } ∧
    (∀ a ∈ [0x101#16, 0x102, 0x203, 0x212, 0x213, 0x215, 0x281, 0x400, 0x401], gives (.registerWrite c a v) ch) ∧
    (∀ (e : Fin 4) slot rest, (linkAt ch (edgePort e.val)).rxSlots = slot :: rest → (edgeAt ch e.val).buf.length < 64 →
      ch.err.mode ≠ 2 → ∃ r, gives (.edgeSlotArrive c e) r ∧ (edgeAt r e.val).buf = (edgeAt ch e.val).buf ++ [slot] ∧
        (linkAt r (edgePort e.val)).rxSlots = rest ∧ r.arr.planes = ch.arr.planes)

/-- R290, R292, R295 to R298, R300, R302, R305 and R306: a mill image loads into the Mill, which runs it edge by edge, with
the elements in its lane pipelines, samples its events and halts on a mismatch or a parity error; the tap lanes' words and
flags. FAILCODE 0 for a read-back mismatch is the model's choice (log 70), as are the engine that takes an element (log 53)
and the parity of a block RAM word (log 55). -/
def Obligations.MillLoadsRunsAndHalts : Prop :=
  ∀ (c : Ch) (s : State),
    let ch := s.chan c
    let gives := fun (i : Instr) (P : Chan → Prop) => ∃ r, exec i s = .next (s.setChan c r) ∧ P r
    (restartable s.hub = true → ch.cstate = .starting → maskAt s.hub.loaded c = true → maskAt s.hub.milled c = false →
      ∀ dev, s.hub.boot.slot = some dev →
      let ends := fun (e : MillTransfer) (m : Mill) => ∃ t, exec (.millLoad c e) s = .next t ∧
        (t.chan c).mill = m ∧ maskAt t.hub.milled c = true ∧ ∀ d, d ≠ c → t.chan d = s.chan d
      (forChan s.hub.boot.containers 6 c = none → ∀ e, ends e { ch.mill with state := .none }) ∧
      (∀ k, forChan s.hub.boot.containers 6 c = some k → sameDigest (flashOf s.hub dev) k = true →
        (∀ n e, millPayload s.hub (flashOf s.hub dev) k = .error n →
          ends e { ch.mill with state := .failed, failcode := BitVec.ofNat 4 n }) ∧
        (∀ i, millPayload s.hub (flashOf s.hub dev) k = .ok i → ends .good (millStart i ch.mill) ∧
          ends .crcTwice { ch.mill with state := .failed, failcode := 2 } ∧
          ends .mismatch { ch.mill with state := .failed, failcode := 0 }))) ∧
    (∀ i m, (millStart i m).state = .run ∧ (millStart i m).image = some i ∧ (millStart i m).cfg = i.cells) ∧
    (millRuns ch = true → frameGood ch.mill ch.mill.scrubAt = true →
      gives (.millScrubCheck c) fun r => r.mill.state = .run ∧ r.mill.scrubErr = ch.mill.scrubErr ∧
        r.mill.scrubAt = (if ch.mill.scrubAt < 2048 then ch.mill.scrubAt + 1 else 0)) ∧
    (millRuns ch = true → frameGood ch.mill ch.mill.scrubAt = false →
      gives (.millScrubCheck c) fun r => r.mill.state = .halted ∧ r.mill.scrubErr = true ∧ r.err.ucc = true ∧
        r.ev.intPend = ch.ev.intPend ||| 0x200) ∧
    (∀ b : Fin 64, (ramCfgOf ch.mill b.val).getLsbD 2 = true →
      treeRuns ch ((ramCfgOf ch.mill b.val).extractLsb' 0 2).toNat = true → 
        gives (.millParityError c b) fun r => r.mill.state = .halted ∧ r.mill.parityErr = true ∧ r.err.ucc = true ∧
        r.ev.intPend = ch.ev.intPend ||| 0x200) ∧
    (∀ n : Fin 16, treeRuns ch (eventTree ch.mill n.val) = true →
      let now := driver ch.mill (lanesNow ch.mill) (cellIx n.val 352)
      gives (.millEventEdge c n) fun r => r.mill.events.getLsbD n.val = now ∧
        (∀ m < 16, m ≠ n.val → r.mill.events.getLsbD m = ch.mill.events.getLsbD m) ∧
        r.ev.intPend = if now = true ∧ ch.mill.events.getLsbD n.val = false then
          ch.ev.intPend ||| BitVec.ofNat 32 (2 ^ (16 + n.val)) else ch.ev.intPend) ∧
    (∀ v : Word, memoriesClocked ch = true → gives (.millCtlUreset c v) fun r =>
      r.mill.ureset = v.getLsbD 0 ∧ (v.getLsbD 0 = false → r.mill.ffs = ch.mill.ffs)) ∧
    (∀ (tree : Fin 4) rx errs, millRuns ch = true →
      let m : Mill := { ch.mill with
        rx := rxWord ch.mill rx
        prbsErr := if ch.mill.tapCtl.getLsbD 6 then satInc16 ch.mill.prbsErr errs else ch.mill.prbsErr }
      let runs := treeRuns ch tree.val
      (runs = true → parityBad m (lanesNow m) tree.val = true →
        gives (.millClockTreeEdge c tree rx errs []) fun r => r.mill.state = .halted ∧ r.mill.parityErr = true ∧
          r.mill.jobs = [] ∧ r.mill.tx = none) ∧
      (runs = false ∨ parityBad m (lanesNow m) tree.val = false → gives (.millClockTreeEdge c tree rx errs []) fun r =>
        r.mill.state = .run ∧ r.mill.rx = m.rx ∧ r.mill.prbsErr = m.prbsErr ∧
        (∀ p ∈ ch.mill.cfg, p.1 < 32768 → r.mill.ffs.getLsbD p.1 =
          if runs then nextFf m (lanesNow m) tree.val p.1 else ch.mill.ffs.getLsbD p.1) ∧
        r.mill.jobs = (if runs = true ∧ tree = 0 then (ch.mill.jobs.map (stepJob m)).filter fun j => !jobDone j
          else if runs then ch.mill.jobs.filter fun j => !jobDone j else ch.mill.jobs) ∧
        (ch.mill.tapCtl.getLsbD 0 = false → r.mill.tx = none) ∧
        (ch.mill.tapCtl.getLsbD 0 = true → ch.mill.tapCtl.getLsbD 5 = false →
          let x := BitVec.ofNat 64 (driverWord r.mill (lanesNow r.mill) 63 352 64)
          r.mill.tx = some (if ch.mill.tapCtl.getLsbD 2 then ~~~x else x)))) ∧
    (∀ (j : MillJob) (x : Flight), x ∈ j.flight →
      (x.left ≠ 0 → { x with left := x.left - 1 } ∈ (stepJob ch.mill j).flight) ∧
      (x.left = 0 → ∀ k < 256, (laneResult ch.mill x.engine x.lane).testBit k = true →
        (stepJob ch.mill j).words.testBit (256 * x.elem + k) = true)) ∧
    (frozen ch = false → ch.cstate = .run ∨ ch.cstate = .idle ∨ ch.cstate = .fenced →
      (gives (.tapLock c) fun r => r = { ch with mill := { ch.mill with lock := true } }) ∧
      (ch.mill.lock = true → gives (.tapLockLost c) fun r =>
        r = raiseLine { ch with mill := { ch.mill with lock := false, lockLost := true } } 9) ∧
      (gives (.tapSigdetChange c) fun r =>
        r = raiseLine { ch with mill := { ch.mill with sigdet := !ch.mill.sigdet, sigdetChg := true } } 9))

/-- R314, R316, R317 to R319, R324, R328, R330: ports negotiate by both ends' messages, replace or renegotiate lanes, and
carry frames and packets. Where MGMT_PACKET puts a message that comes, and that a message to be sent enters at CH0, is the
model's choice (log 117), and so is the list of frames on the wire of an interior link (log 119). -/
def Obligations.KegPortsNegotiateAndCarry : Prop :=
  ∀ (c : Ch) (s : State) (p : Fin 6),
    let ch := s.chan c
    let q := portAt ch p.val
    let cnt := fun (m : NegMsg) (k : Nat) => ((List.range 5).filter fun i => (m.good.toList.getD k 0).getLsbD i).length
    let toPort := fun (i : Instr) (P : Port → Prop) => ∃ r, exec i s = .next (s.setChan c r) ∧ P (portAt r p.val) ∧
      (∀ k < 6, k ≠ p.val → portAt r k = portAt ch k) ∧ r.mem = ch.mem ∧ r.ctl = ch.ctl
    let toLink := fun (i : Instr) (P : Link → Prop) => ∃ r, exec i s = .next (s.setChan c r) ∧ P (linkAt r p.val) ∧
      r.mem = ch.mem ∧ r.ctl = ch.ctl
    let l := linkAt ch p.val
    let works := (q.state = .up ∨ q.state = .miswired) ∧ q.low = none
    s.hub.supply.bypass = .opened → ch.err.mode ≠ 2 →
    (q.state = .down → q.enable = true →
      toPort (.kegPortNegotiate c p) (fun r => r.state = .negotiating ∧ r.pstate = 7) ∧
      toPort (.kegNegotiationRetry c p) (fun r => r.state = .negotiating ∧ r.pstate = 7)) ∧
    (q.state = .negotiating → interiorPeer c p.val = none → ∀ m : NegMsg,
      (cnt m 3 = 0 ∨ 1 < m.verLo.toNat ∨ m.verHi.toNat < 1 →
        toPort (.kegNegotiationDone c p m) fun r => r.state = .down ∧ r.pvalid = false) ∧
      (cnt m 3 ≠ 0 → m.verLo.toNat ≤ 1 → 1 ≤ m.verHi.toNat →
        let expected := samePlace ch.keg m.addr (expectedPartner ch.keg p.val)
        let line := sameLine ch.keg p.val m.addr
        toPort (.kegNegotiationDone c p m) (fun r => r.partner = m.addr ∧ r.pvalid = true ∧ r.psession = some m.session ∧
          r.version = 1 ∧ r.bypHops = m.hops ∧
          (expected = true → r.state = .up ∧ r.pmismatch = false ∧ r.pstate = m.cstate) ∧
          (expected = false → line = true → r.state = .up ∧ r.pmismatch = true) ∧
          (expected = false → line = false → r.state = .miswired ∧ r.pmismatch = false ∧ r.pstate = 7) ∧
          (q.psession.isSome = true → r.renegd = true) ∧
          (q.psession.isSome = true → (q.partner ≠ m.addr ∨ q.psession ≠ some m.session) → r.pchg = true)) ∧
        (q.maxRate = 0 → q.maxLanes = 0 → m.maxRate = 0 → m.maxLanes = 0 → ch.cstate ≠ .doze →
          toPort (.kegNegotiationDone c p m) fun r =>
            (cnt m 0 = 5 → r.rate = 0 ∧ r.lanes = 0 ∧ r.active = 0b01111 ∧ r.spare = 0b10000 ∧ r.fec = true) ∧
            (cnt m 0 = 4 → r.rate = 0 ∧ r.lanes = 0 ∧ r.active = m.good[0] ∧ r.spare = 0) ∧
            (cnt m 0 = 3 → cnt m 1 = 5 → r.rate = 1 ∧ r.lanes = 0 ∧ r.active = 0b01111 ∧ r.spare = 0b10000) ∧
            (cnt m 0 = 2 → cnt m 1 = 2 → r.rate = 0 ∧ r.lanes = 1 ∧ r.active = m.good[0] ∧ r.spare = 0) ∧
            (cnt m 0 = 0 → cnt m 1 = 0 → cnt m 2 = 4 → r.rate = 2 ∧ r.lanes = 0 ∧ r.active = m.good[2] ∧ r.spare = 0)))) ∧
    (∀ (m : NegMsg) d e, interiorPeer c p.val = some (d, e) → q.state = .negotiating →
      (portAt (s.chan d) e).state = .negotiating → m.good[3] ≠ 0 →
      samePlace ch.keg (s.chan d).keg.own (expectedPartner ch.keg p.val) = true →
      samePlace (s.chan d).keg ch.keg.own (expectedPartner (s.chan d).keg e) = true →
      ∃ t, exec (.kegNegotiationDone c p m) s = .next t ∧
        (portAt (t.chan c) p.val).state = .up ∧ (portAt (t.chan c) p.val).partner = (s.chan d).keg.own ∧
        (portAt (t.chan d) e).state = .up ∧ (portAt (t.chan d) e).partner = ch.keg.own) ∧
    (∀ lane : Fin 5, works → q.active.getLsbD lane.val = true → q.spare &&& q.active = 0 →
      (q.spare ≠ 0 → q.spareUsed = false → ∀ i ∈ [Instr.kegLaneErrorLimit c p lane, .kegLaneLockLoss c p lane],
        toPort i fun r => r.state = q.state ∧ r.spareUsed = true ∧ r.spare = 0 ∧
          r.active = (q.active &&& ~~~(BitVec.ofNat 5 (2 ^ lane.val))) ||| q.spare) ∧
      (q.spare = 0 → q.enable = true → ∀ i ∈ [Instr.kegLaneErrorLimit c p lane, .kegLaneLockLoss c p lane],
        toPort i fun r => r.state = .negotiating)) ∧
    (q.enable = true → toPort (.kegPcfgReneg c p) fun r => r.state = .negotiating) ∧
    (q.enable = true → works → partnerAsks c p.val s = true → toPort (.kegRenegRequest c p) fun r => r.state = .negotiating) ∧
    (memoriesClocked ch = true → toPort (.kegPcfgEnable c p false) fun r => r.state = .disabled ∧ r.enable = false) ∧
    (memoriesClocked ch = true → q.enable = false →
      toPort (.kegPcfgEnable c p true) fun r => r.state = .negotiating ∧ r.enable = true) ∧
    (q.state ≠ .up → q.state ≠ .miswired → q.low = none → ch.keg.downLimit ≠ 0 →
      toLink (.kegDownLimitExpire c p) fun r => r.tx = [] ∧ r.limited = true ∧ r.replay = l.replay) ∧
    (works → interiorPeer c p.val = none → ∀ f : Frame,
      let far := ((headOf f).seq - l.expected).toNat
      let sound := f.decoded = true ∧ frameKind f = 0 ∧ crcOk f = true
      (f.decoded = true → frameKind f = 1 → exec (.kegFrameReceive c p f) s = .next (s.setChan c ch)) ∧
      (f.decoded = false ∨ frameKind f = 2 ∨ frameKind f = 3 ∨ (frameKind f = 0 ∧ crcOk f = false) ∨
          (sound ∧ 1 ≤ far ∧ far ≤ 4095) → toLink (.kegFrameReceive c p f) fun r =>
        r.nak = true ∧ r.expected = l.expected ∧ r.rxSlots = l.rxSlots ∧ r.rxPackets = l.rxPackets) ∧
      (sound → far = 0 → toLink (.kegFrameReceive c p f) fun r => r.expected = l.expected + 1 ∧ r.nak = false) ∧
      (sound → 61441 ≤ far → exec (.kegFrameReceive c p f) s = .next (s.setChan c ch)) ∧
      (sound → q.enable = true → 4095 < far → far < 61441 →
        toPort (.kegFrameReceive c p f) fun r => r.state = .negotiating)) ∧
    (works → ∀ f g rest d e, interiorPeer c p.val = some (d, e) → (linkAt (s.chan d) e).wire = g :: rest →
      ∃ t, exec (.kegFrameReceive c p f) s = .next t ∧ (linkAt (t.chan d) e).wire = rest ∧
        (f.decoded = true → frameKind g = 0 → crcOk g = true → (headOf g).seq = l.expected →
          (linkAt (t.chan c) p.val).expected = l.expected + 1)) ∧
    (works → l.unsent = [] → l.replay.length < 1024 →
      toLink (.kegFrameTransmit c p) fun r => ∃ f : Frame, r.replay = l.replay ++ [f] ∧ (headOf f).seq = l.seqNext ∧
        (headOf f).ackseq = l.expected - 1 ∧ (headOf f).nak = l.nak ∧ frameKind f = 0 ∧ crcOk f = true ∧
        r.seqNext = l.seqNext + 1 ∧ r.nak = false ∧
        r.wire = if (interiorPeer c p.val).isSome then l.wire ++ [f] else l.wire) ∧
    (works → ∀ f rest, l.unsent = f :: rest →
      toLink (.kegFrameTransmit c p) fun r => r.unsent = rest ∧ r.seqNext = l.seqNext ∧ r.nak = false) ∧
    (∀ k rest, l.rxPackets = k :: rest → toLink (.routerPacketArrive c p) fun r => r.rxPackets = rest) ∧
    (ch.rack.mgmt = [] → exec (.mgmtPacket c none) s = .next s) ∧
    (∀ k rest, ch.rack.mgmt = k :: rest → ∃ t, exec (.mgmtPacket c none) s = .next t ∧
      t.hub.services.keg = s.hub.services.keg ++ [(pSrc k, payloadBytes k)] ∧ (t.chan c).rack.mgmt = rest ∧
      (t.chan c).mem = ch.mem ∧ (t.chan c).ctl = ch.ctl ∧ ∀ d, d ≠ c → t.chan d = s.chan d) ∧
    (∀ m bs, exec (.mgmtPacket c (some (m, bs))) s =
      .next (s.setChan c (enterRouter ch (mgmtPacket ch.keg (channel0 m) bs))))

/-- R331, R423 to R425: TIMEBASE locks to its parent, steps and holds over, and the compare units fire; an armed unit is
compared in every tick (the rates and the root's 10 ms are log 63). R415 to R419: IDLE and DOZE are entered and left, with
the wake of a PAIRED partner, the latches in planes 4,064 to 4,067 and the self-refresh of the HBM. That a failed read at
the end of a DOZE is reported as at a RESUME is the model's choice (log 129), as is what must have ended before a DOZE (log
64). -/
def Obligations.TimeComparesAndDozeWork : Prop :=
  ∀ (c : Ch) (s : State),
    let ch := s.chan c
    let t := s.hub.timebase
    let gives := fun (i : Instr) (r : Chan) => exec i s = .next (s.setChan c r)
    let timeIs := fun (r : State) (u : TimeBase) => ({ r with hub := { r.hub with timebase := u } } : State)
    (s.hub.supply.aux = true → ∀ round : Word,
      let a := askAgain (endPeriod s)
      let u := a.hub.timebase
      (u.since = 0 ∧ u.rate = t.rate ∧ u.locked = t.locked ∧ u.holdover = t.holdover ∧ u.hops = t.hops ∧
        (10000 ≤ t.since → u.count = t.count) ∧
        (t.since < 10000 → u.count = t.count + BitVec.ofNat 64 (10000 - t.since) + (match t.rate with
          | .nominal => 0
          | .fast => 1
          | .slow => BitVec.allOnes 64))) ∧
      (heardOf s = none → exec (.timebaseSync round) s = .next a) ∧
      (∀ parent, heardOf s = some parent →
        let target := parent + BitVec.ofNat 64 (round.toNat / 2)
        let hops := BitVec.ofNat 5 (moduleHops (a.chan 0).keg a.hub.boot.config.addr a.hub.boot.config.tbRoot)
        let near := u.count.toNat ≤ target.toNat + 1000 ∧ target.toNat ≤ u.count.toNat + 1000
        (isRoot s.hub = true → u.count.toNat ≤ 10000000 → ∃ r, exec (.timebaseSync round) s = .next r ∧
          r.hub.timebase = { u with count := target, locked := true }) ∧
        (isRoot s.hub = true → 10000000 < u.count.toNat →
          exec (.timebaseSync round) s = .next (timeIs a { u with locked := true })) ∧
        (isRoot s.hub = false → t.locked = false ∨ ¬near → ∃ r, exec (.timebaseSync round) s = .next r ∧
          r.hub.timebase = { u with count := target, rate := .nominal, locked := true, holdover := false, hops := hops } ∧
          ∀ d, (r.chan d).pwr.stepped = true) ∧
        (isRoot s.hub = false → t.locked = true → near → exec (.timebaseSync round) s =
          .next (timeIs a { u with
            rate := if u.count.toNat < target.toNat then .fast else if target.toNat < u.count.toNat then .slow else .nominal
            locked := true, holdover := false, hops := hops })))) ∧
    (s.hub.supply.aux = true → isRoot s.hub = false →
      exec .timebaseHoldover s = .next (timeIs s { t with holdover := true })) ∧
    (s.hub.supply.aux = true → isRoot s.hub = true →
      exec .timebaseHoldover s = .next (timeIs s { t with locked := true })) ∧
    (chanRunning ch = true → ∀ k : Fin 2,
      let cmp := if k.val = 0 then ch.pwr.cmp0 else ch.pwr.cmp1
      (2 ^ 31 ≤ (t.count.setWidth 32 - cmp).toNat → gives (.tbCmpctlArm c k) (setArm k.val true ch)) ∧
      ((t.count.setWidth 32 - cmp).toNat < 2 ^ 31 →
        (ch.pwr.tbWake = false → gives (.tbCmpctlArm c k) (raiseLine (setArm k.val false ch) (7 + k.val))) ∧
        (ch.pwr.tbWake = true → ch.pwr.woken = false → ∃ r, exec (.tbCmpctlArm c k) s = .next r ∧
          armOf (r.chan c) k.val = false ∧ (r.chan c).ev.intPend.getLsbD (7 + k.val) = true ∧
          ∀ d ∈ pairOf s c, (s.chan d).cstate ≠ .doze → dozeAsked (s.chan d) = true →
            dozeAsked (r.chan d) = false ∧ (r.chan d).pwr.wake = 3 ∧ (r.chan d).pwr.last = true)) ∧
      gives (.tbCmpctlDisarm c k) (setArm k.val false ch)) ∧
    (s.hub.supply.aux = true → unitsRun ch = true → ∀ k : Fin 2, armOf ch k.val = true →
      let cmp := if k.val = 0 then ch.pwr.cmp0 else ch.pwr.cmp1
      (∃ r, exec (.tbCompareFire c k) s = .next r ∧ armOf (r.chan c) k.val = false ∧
        (r.chan c).ev.intPend.getLsbD (7 + k.val) = true ∧
        (r.hub.timebase.count.setWidth 32 - cmp).toNat < 2 ^ 31 ∧
        (ch.pwr.tbWake = true → ch.cstate = .doze → ch.err.mode ≠ 2 →
          (r.chan c).cstate = .run ∧ (r.chan c).pwr.wake = 2))) ∧
    (∀ v : Word,
      (ctlGoes ch = true → ch.ev.wait = none → gives (.chPwrCtlDoze c v) { ch with
        pwr := { ch.pwr with autoIdle := v.getLsbD 0, tbWake := v.getLsbD 2, reqCtl := true }
        ev := { ch.ev with wait := some { kind := .doze, len := 0 } } }) ∧
      (ctlGoes ch = false ∨ ch.ev.wait ≠ none → exec (.chPwrCtlDoze c v) s = .next s)) ∧
    (ch.err.mode ≠ 2 →
      (ch.cstate ≠ .doze → gives (.modPwrCtlDozeSet c) { ch with pwr := { ch.pwr with reqHost := true } }) ∧
      (ch.cstate = .doze → ∃ r, gives (.modPwrCtlDozeClear c) r ∧ r.cstate = .run ∧ r.pwr.wake = 1 ∧
        r.pwr.reqHost = false ∧ r.hbm.refresh = false ∧ r.arr.planes = ch.arr.planes ∧ r.ctl = ch.ctl ∧ r.mem = ch.mem ∧
        ((∀ k, 4064 ≤ k → k < 4068 → planeUes ch k = []) → r.arr.c = planeOf ch 4064 ∧ r.arr.m = planeOf ch 4065 ∧
          r.arr.x = planeOf ch 4066 ∧ r.arr.t = planeOf ch 4067) ∧
        ((∃ k, 4064 ≤ k ∧ k < 4068 ∧ planeUes ch k ≠ []) →
          ∃ q ∈ r.err.src.queue ++ r.err.src.waiting, q.cls = .ucc ∧ q.code = 2)) ∧
      (ch.cstate ≠ .doze → dozeAsked ch = true → gives (.modPwrCtlDozeClear c) { ch with pwr := { ch.pwr with
        reqCtl := false, reqHost := false, wake := 3, last := true } }) ∧
      (dozeAsked ch = true → dozeReady ch = true → sparseWf 0#1048576 ch.arr.planes = true →
        ∃ r, gives (.dozeEntry c) r ∧ r.cstate = .doze ∧ planeOf r 4064 = ch.arr.c ∧ planeOf r 4065 = ch.arr.m ∧
          planeOf r 4066 = ch.arr.x ∧ planeOf r 4067 = ch.arr.t ∧ r.hbm.refresh = ch.hbm.trained ∧
          (∀ k, k < 4064 ∨ 4068 ≤ k → planeOf r k = planeOf ch k) ∧ r.ctl = ch.ctl)) ∧
    (chanRunning ch = true → ch.pwr.autoIdle = true → (∃ n, ch.ev.wait = some { kind := .wfi, len := n }) →
      wfiEvent ch = false → ch.seq.queue = [] → ch.seq.cur = none → ch.rack.inq = [] → ch.rack.images = [] →
      ch.rack.responses = [] →
      ∃ r, gives (.idleEntry c) r ∧ r.cstate = .idle ∧ r.ctl = ch.ctl ∧ r.mem = ch.mem) ∧
    (ch.cstate = .idle → frozen ch = false →
      (idleHolds ch = true → exec (.idleExit c) s = .next s) ∧
      (idleHolds ch = false → ∃ r, gives (.idleExit c) r ∧ r.cstate = .run ∧ r.ctl = ch.ctl ∧ r.mem = ch.mem))

/-! ### Supplies, start and the host port -/

/-- R357, R360, R367, R376, R414, R420, R421 and R429: supplies, AUX-ONLY, the start of a channel and its restart. The order
of some of its steps is log 65 and 67 to 69. R412 and R434: aux power brings its four rails up and reads the straps, whose
setting is the model's choice (log 128); the loss of the main rails takes every value on them, the waiting packets and
reports among them. -/
def Obligations.SuppliesStartAndRestart : Prop :=
  ∀ (c : Ch) (s : State),
    let h := s.hub
    let p := h.supply
    (p.aux = false → Gives (.auxPowerValid false) s fun t => t.hub.supply.aux = true ∧ t.hub.boot.selfFail = true ∧
      t.hub.boot.step = 1 ∧ t.hub.timebase = TimeBase.reset ∧ ∀ d, (t.chan d).cstate = .starting) ∧
    (p.aux = false → p.lidOpen = false → h.returnDue = false → lcState h.fuses ≠ 4 →
      Gives (.auxPowerValid true) s fun t => t.hub.supply.aux = true ∧ t.hub.boot.step = 3 ∧ t.hub.fuses = h.fuses ∧
        t.hub.supply.on = [.hubCore, .hubIo, .flash, .link] ∧
        t.hub.supply.smbus = BitVec.ofNat 7 (0x40 + Config.addrSel.toNat) ∧
        t.hub.timebase = TimeBase.reset ∧ t.hub.dap.level = (if lcState h.fuses = 0 then 3 else 0) ∧
        ∀ d, (t.chan d).cstate = .starting) ∧
    (p.aux = true → Gives .auxPowerRemoved s fun t => t.hub.supply.aux = false ∧ t.hub.supply.rails = false ∧
      t.hub.supply.bypass = .passive ∧ t.hub.cask = Cask.reset ∧ t.hub.log = ErrLog.reset ∧ t.hub.fuses = h.fuses ∧
      t.hub.flash = h.flash ∧ ∀ d, (t.chan d).cstate = .starting) ∧
    (p.input = true → p.aux = true → 3 ≤ h.boot.step → p.auxOnly = false → p.rails = false → p.fatal = false →
      p.tampered = false → Gives .mainPowerStart s fun t => t.hub.supply.main = true ∧ t.hub.supply.rails = true ∧
        t.hub.boot.step = 4 ∧ ∀ d, (t.chan d).keg.own = globalAddr h.boot.config.addr d.val ∧
          ∀ k < 6, (portAt (t.chan d) k).state = .down ∨ (portAt (t.chan d) k).state = .disabled) ∧
    (p.main = true → p.rails = true → Gives .mainPowerLost s fun t => t.hub.supply.main = false ∧
      t.hub.supply.rails = false ∧ t.hub.supply.bypass = (if p.aux then .retimed else .passive) ∧
      t.hub.fuses = h.fuses ∧ ∀ d, (t.chan d).cstate = .starting ∧ (t.chan d).ctl = Ctl.reset ∧
        (t.chan d).rack = Rack.reset ∧ (t.chan d).err.src = Source.reset ∧ (t.chan d).hbm.bytes = []) ∧
    (Gives .bothSuppliesLost s fun t => t.hub.supply.main = false ∧ t.hub.supply.aux = false ∧
      t.hub.supply.bypass = .passive ∧ t.hub.fuses = h.fuses) ∧
    (∀ b, p.input = true → Gives (.inputTrip b) s fun t => t.hub.supply.input = false ∧ t.hub.supply.main = false ∧
      t.hub.fuses = h.fuses) ∧
    (Gives .inputSwitchReclose s fun t => t = { s with hub := { h with supply := { p with input := true } } }) ∧
    (portUp h = true → p.rails = true → Gives (.auxOnlyWrite true) s fun t => t.hub.supply.auxOnly = true ∧
      t.hub.supply.rails = false ∧ ∀ d, (t.chan d).cstate = .starting) ∧
    (portUp h = true → 3 ≤ h.boot.step → p.main = true → p.input = true → p.rails = false → p.fatal = false →
      p.tampered = false → Gives (.auxOnlyWrite false) s fun t => t.hub.supply.auxOnly = false ∧
        t.hub.supply.rails = true ∧ t.hub.boot.step = 4) ∧
    (mayLeaveReset h c (s.chan c) = true → ∀ (t : HbmTrain),
      (isHeld h c = true → Gives (.channelLeaveReset c t []) s fun u => (u.chan c).cstate = .fenced) ∧
      (∀ dev, isHeld h c = false → h.boot.slot = some dev → t.failing.isSome = true →
        Gives (.channelLeaveReset c t []) s fun u => (u.chan c).cstate = .fenced ∧ (u.chan c).err.lastCode = 0x10) ∧
      (∀ dev k m n pl, isHeld h c = false → h.boot.slot = some dev → t.failing = none →
        forChan h.boot.containers 5 c = some k → k.fail = 0 →
        (∀ x ∈ h.boot.containers, (2 ≤ x.kind.toNat ∧ x.kind.toNat ≤ 4) ∨ x = k → sameDigest (flashOf h dev) x = true) →
        slotStore h (flashOf h dev) h.boot.containers = .ok (m, n) → payloadOf h (flashOf h dev) k = some pl →
        Gives (.channelLeaveReset c t []) s fun u => (u.chan c).cstate = .starting ∧
          (u.chan c).hbm.trained = true ∧ (u.chan c).hbm.bytes = [] ∧ (u.chan c).seq.ustore = m.words ∧
          (u.chan c).mem.imem = memSetBytes [] 0 (pl.take 0x80000) ∧ maskAt u.hub.loaded c = true ∧
          ∀ d, d ≠ c → u.chan d = s.chan d)) ∧
    (restartable h = true → 4 ≤ h.boot.step → allIn s h.milled = true → Gives .kegBypassOpen s fun t =>
      t.hub.supply.bypass = .opened ∧ 9 ≤ t.hub.boot.step ∧ t.chans = s.chans) ∧
    (restartable h = true → (s.chan c).cstate = .starting → maskAt h.loaded c = true → maskAt h.milled c = true →
      p.bypass = .opened → Gives (.channelEnterRun c) s fun t => (t.chan c).cstate = .run ∧
        (t.chan c).ctl = (s.chan c).ctl ∧ maskAt t.hub.ready c = true ∧ ∀ d, d ≠ c → t.chan d = s.chan d) ∧
    (restartable h = true → (s.chan c).err.mode ≠ 2 → isHeld h c = false → Gives (.channelRestart c) s fun t =>
      let r := t.chan c
      r.cstate = .starting ∧ r.ctl = Ctl.reset ∧ r.arr.c = 0 ∧ r.arr.m = BitVec.allOnes 1048576 ∧ r.arr.x = 0 ∧
        r.arr.t = 0 ∧ r.seq.queue = [] ∧ r.seq.cur = none ∧ r.rack.entries = [] ∧ r.arr.tunMap = (s.chan c).arr.tunMap ∧
        maskAt t.hub.ready c = false ∧ maskAt t.hub.loaded c = false ∧ ∀ d, d ≠ c → t.chan d = s.chan d)

/-- R339 to R358: the link trains and its resets act, and the functions answer requests of the host. What the configuration
requests name is log 84. That the AER bit of a link error stays set through the link-down that it brings is the model's
choice (log 121, PRESUMED). -/
def Obligations.HostPortServesRequests : Prop :=
  ∀ (c : Ch) (s : State),
    let h := s.hub
    let ch := s.chan c
    let full : LinkPartner := { speed := 6, width := 16, flit := true, flipped := false }
    let all := fun (x : Half) => (Vector.replicate 6 x : Vector Half 6)
    let sent := fun (o : HostOut) => s.setChan c { ch with fn := fnSend ch.fn o }
    (h.supply.perst = false → h.supply.fatal = false → Gives .perstNAssert s fun t => t.hub.supply.perst = true ∧
      t.hub.link.speed = 0 ∧ t.hub.pf0.mse = false ∧
      ∀ d, (t.chan d).cstate = .starting ∧ (t.chan d).ctl = Ctl.reset ∧ (t.chan d).fn.mse = false) ∧
    (h.supply.perst = true → managed h = true → lcState h.fuses ≠ 4 → Gives (.perstNRelease (all 0xFFFF) full) s fun t =>
      t.hub.supply.perst = false ∧ t.hub.link = { speed := 6, width := 16, reversed := false, flit := true }) ∧
    (canTrain h = true →
      (Gives (.linkRetrain (all 0x00FF) full 0) s fun t =>
        t = { s with hub := { h with link := { speed := 6, width := 8, reversed := false, flit := true } } }) ∧
      (Gives (.linkRetrain (all 0xFF00) { full with speed := 5 } 0) s fun t =>
        t = { s with hub := { h with link := { speed := 5, width := 8, reversed := true, flit := true } } }) ∧
      (Gives (.linkRetrain (all 0xFFFF) { full with flit := false } 0) s fun t =>
        t = { s with hub := { h with link := { speed := 5, width := 16, reversed := false, flit := false } } }) ∧
      (Gives (.linkRetrain (all 0xFFFF) { full with flipped := true } 0) s fun t =>
        t = { s with hub := { h with link := { speed := 6, width := 16, reversed := true, flit := true } } }) ∧
      (Gives (.linkRetrain (all 0) full 0) s fun t => t.hub.link.speed = 0)) ∧
    (linkUp h = true →
      (Gives (.linkRetrain (all 0) full 0) s fun t => t.hub.pf0.mse = false ∧ ∀ d, (t.chan d).fn.mse = false) ∧
      (∀ x : BitVec 6, Gives (.linkRetrain (all 0xFFFF) full x) s fun t =>
        t.hub.pf0.aer.linkCor = h.pf0.aer.linkCor ||| x) ∧
      (h.supply.rails = true → h.supply.fatal = false → Gives (.hotReset none) s fun t => t.hub.link.speed = 0 ∧
        t.hub.pf0.mse = false ∧ ∀ d, (t.chan d).ctl = Ctl.reset ∧ (t.chan d).fn.mse = false) ∧
      (∀ k : Fin 3, Gives (.hotReset (some k)) s fun t => t.hub.link.speed = 0 ∧
        t.hub.pf0.aer.link.getLsbD k.val = true ∧ ∀ d, (t.chan d).fn.mse = false) ∧
      (restartable h = true → ch.err.mode ≠ 2 → isHeld h c = false → Gives (.flrChannelFunction c) s fun t =>
        (t.chan c).ctl = Ctl.reset ∧ (t.chan c).fn.mse = false ∧ (t.chan c).fn.table = [] ∧
        (t.chan c).cstate = .starting ∧ ∀ d, d ≠ c → t.chan d = s.chan d) ∧
      (Gives .flrPf0 s fun t => t.hub.pf0 = resetFn h.pf0 ∧ t.hub.planned = h.planned ∧
        t.hub.supply.auxOnly = h.supply.auxOnly ∧
        ∀ d, t.chan d = { s.chan d with pwr := { (s.chan d).pwr with reqHost := false } }) ∧
      (∀ (f : Fin 17) d3, Gives (.pmStateChange f d3) s fun t => fnOf t f = { fnOf s f with d3 := d3 }) ∧
      (∀ f : Fin 17, retries s f = true → ∀ req, Gives (.hostConfigRequest f req) s fun t =>
        fnOf t f = fnSend (fnOf s f) .retry) ∧
      (∀ f : Fin 17, retries s f = false →
        (Gives (.hostConfigRequest f .readId) s fun t => fnOf t f =
          fnSend (fnOf s f) (.config ((if f.val = 0 then 0x0A00#16 else 0x0A01#16) ++ Config.vendorId))) ∧
        (Gives (.hostConfigRequest f .readInterruptPin) s fun t => fnOf t f = fnSend (fnOf s f) (.config 0)) ∧
        (∀ k : Fin 6, 4 ≤ k.val → Gives (.hostConfigRequest f (.readBar k)) s fun t =>
          fnOf t f = fnSend (fnOf s f) (.config 0)) ∧
        (∀ mse bme, Gives (.hostConfigRequest f (.command mse bme)) s fun t =>
          (fnOf t f).mse = mse ∧ (fnOf t f).bme = bme) ∧
        (∀ ro e pay rd, Gives (.hostConfigRequest f (.deviceControl ro e pay rd)) s fun t =>
          (fnOf t f).relaxed = ro ∧ (fnOf t f).maxPayload = pay ∧ (fnOf t f).maxRead = rd)) ∧
      (∀ f : Fin 17, Gives (.hostUnsupportedRequest f) s fun t => (fnOf t f).aer.unsupported = true ∧
        (fnOf t f).out.getLast? = some .unsupported) ∧
      (∀ f : Fin 17, Gives (.hostPoisonedWrite f) s fun t => (fnOf t f).aer.poisoned = true ∧
        (fnOf t f).table = (fnOf s f).table ∧ ∀ d, (t.chan d).mem = (s.chan d).mem ∧ (t.chan d).hbm = (s.chan d).hbm) ∧
      (decodes h.pf0 = true →
        (∀ x ∈ [(0x20, h.log.head), (0x28, if h.planned then 1#32 else 0), (0x1C, h.tamper.setWidth 32),
            (0x30, h.availUp.setWidth 32), (0x2480, h.telemetry.threshold)],
          Gives (.hostBar0RegisterRead 0 x.1 1) s fun t =>
            t.hub.pf0.out = h.pf0.out ++ [.data (natBytes 4 x.2.toNat) false] ∧
            (x.1 = 0x30 → t.hub.latchUp = h.availUp.extractLsb' 32 32)) ∧
        (∀ v, (Gives (.hostBar0RegisterWrite 0 0x28 [{ value := v, enables := 15 }] []) s fun t =>
          t = { s with hub := { h with planned := v.getLsbD 0 } })) ∧
        (∀ v (e : BitVec 4), e ≠ 15 → Gives (.hostBar0RegisterWrite 0 0x28 [{ value := v, enables := e }] []) s fun t =>
          t = s))) ∧
    (HostServed s c →
      (exec (.hostBar0RegisterRead (chanFn c) 4 1) s =
        .next (sent (.data (natBytes 4 (ch.host.hwin.toNat * 32768)) false))) ∧
      (∀ v, exec (.hostBar0RegisterWrite (chanFn c) 4 [{ value := v, enables := 15 }] []) s =
        .next (s.setChan c { ch with host := { ch.host with hwin := v.extractLsb' 15 5 } })) ∧
      (∀ v (e : BitVec 4), e ≠ 15 →
        exec (.hostBar0RegisterWrite (chanFn c) 4 [{ value := v, enables := e }] []) s = .next s) ∧
      (∀ off n, off + n ≤ 0x8000 → ch.mem.dmarks = [] → exec (.hostDmemWindowRead c off n) s =
        .next (sent (.data (memBytes ch.mem.dmem (ch.host.hwin.toNat * 32768 + off) n) false))) ∧
      (∀ off data, off + data.length ≤ 0x8000 → ch.mem.dmarks = [] → Memory.wf ch.mem.dmem = true →
        ∃ r, exec (.hostDmemWindowWrite c off data []) s = .next (s.setChan c r) ∧ Memory.wf r.mem.dmem = true ∧
          r.mem.imem = ch.mem.imem ∧ r.ctl = ch.ctl ∧
          ∀ a, memByte r.mem.dmem a = hostPut ch.mem.dmem (ch.host.hwin.toNat * 32768 + off) data a) ∧
      (∀ addr n, addr + n ≤ 2 ^ 34 → ch.hbm.marks = [] → exec (.hostBar2Read c addr n) s =
        .next (sent (.data (memBytes ch.hbm.bytes addr n) false))) ∧
      (∀ addr data, addr + data.length ≤ 2 ^ 34 → ch.hbm.marks = [] → Memory.wf ch.hbm.bytes = true →
        ∃ r, exec (.hostBar2Write c addr data) s = .next (s.setChan c r) ∧ Memory.wf r.hbm.bytes = true ∧
          r.mem = ch.mem ∧ r.ctl = ch.ctl ∧ ∀ a, memByte r.hbm.bytes a = hostPut ch.hbm.bytes addr data a) ∧
      (∀ vec < 260, ∀ (k : Fin 4) v, sparseWf (1#128 <<< 96) ch.fn.table = true →
        ∃ r, exec (.msixTableWrite (chanFn c) vec k v) s = .next (s.setChan c r) ∧ ∀ j < 4,
          (msixEntry r.fn vec).extractLsb' (32 * j) 32 =
            if j = k.val then v else (msixEntry ch.fn vec).extractLsb' (32 * j) 32) ∧
      (∀ vec < 260, ch.fn.pba = [vec] → ch.fn.msixEn = true → ch.fn.bme = true → ch.fn.funcMask = false →
        ∃ r, exec (.msixUnmask (chanFn c) vec) s = .next (s.setChan c r) ∧ r.fn.pba = [] ∧
          r.fn.out = ch.fn.out ++ [.msix vec ((msixEntry ch.fn vec).extractLsb' 0 64)
            ((msixEntry ch.fn vec).extractLsb' 64 32)])) ∧
    (∀ tag e off upto, memoriesClocked ch = true → ch.err.mode ≠ 2 → entryAt ch tag = some e → e.state = .hostRead off upto →
      ∃ r f, exec (.hostReadTimeout c tag) s = .next (s.setChan c r) ∧ r.fn.aer.timeout = true ∧
        entryAt r tag = some f ∧ f.state = .finished 5 0 (BitVec.ofNat 32 off))

/-! ### Errors, capture, the debug port and management -/

/-- R24, R354, R378, R379, R394, R396, R398 to R401, R404 and R406 to R409: reports are accepted in order and logged, with
the repair record of the channel, error sources fence a channel or make the module fatal, counts and telemetry are kept, and
a capture freezes a channel. That AVAIL_RECORD_WRITE lets the milliseconds pass on TIMEBASE is the model's choice (log 90),
and so are that an ARM leaves the shadow cells empty (log 95), which outputs of a pair are compared (log 94) and where a
report waits while its queue is full (log 113). -/
def Obligations.ErrorsAreReportedAndHandled : Prop :=
  ∀ (c : Ch) (s : State),
    let h := s.hub
    let ch := s.chan c
    let gives := fun (i : Instr) (P : Chan → Prop) => ∃ r, exec i s = .next (s.setChan c r) ∧ P r
    let fatal := fun (i : Instr) => Gives i s fun t => t.hub.supply.fatal = true ∧
      (h.supply.fatal = false → ∀ d, (t.chan d).cstate = .fatal ∧ (t.chan d).fn.aer.uncInternal = true)
    (managed h = true → ∀ r rest, ch.err.src.queue = r :: rest → (∀ d : Ch, d < c → (s.chan d).err.src.queue = []) →
      Gives (.errorReportAccept none) s fun t => t.hub.log.head = h.log.head + 1 ∧
        (ch.err.src.waiting = [] → (t.chan c).err.src.queue = rest) ∧
        (∀ w ws, ch.err.src.waiting = w :: ws →
          (rest.length < 14 → (t.chan c).err.src.queue = rest ++ [w] ∧ (t.chan c).err.src.waiting = ws) ∧
          (16 ≤ rest.length → (t.chan c).err.src.queue = rest ∧ (t.chan c).err.src.waiting = w :: ws)) ∧
        (r.cls = .ce → (recordNow h).counter.toNat + 1 < 2 ^ 32 → recorded t.hub c = repairsOf ch) ∧
        (t.hub.log.ring.toList.getD (h.log.head.toNat % 256) 0).extractLsb' 0 32 = h.log.head ∧
        (t.hub.log.ring.toList.getD (h.log.head.toNat % 256) 0).extractLsb' 32 5 = BitVec.ofNat 5 c.val ∧
        (t.hub.log.ring.toList.getD (h.log.head.toNat % 256) 0).extractLsb' 40 8 = r.code ∧
        (r.cls = .ce → (t.chan c).fn.aer.corInternal = true ∧ t.hub.supply = h.supply) ∧
        (r.cls = .ucc → r.fence = false → ch.cstate ≠ .fenced →
          (t.chan c).fn.aer.uncInternal = true ∧ (t.chan c).cstate = ch.cstate) ∧
        (r.cls = .ucc → r.fence = true → t.hub.fenceTimes[c.val].getLast? = some h.timebase.count) ∧
        (r.cls = .fatal → t.hub.supply.fatal = true)) ∧
    (managed h = true → (∀ d, (s.chan d).err.src.queue = []) → (∀ k : Fin 8, h.log.sources[k].queue = []) →
      exec (.errorReportAccept none) s = .next s) ∧
    (monitored h = true →
      (ch.cstate ≠ .fenced → (gives (.channelOvertemp c true) fun r => r.cstate = .fenced ∧ r.err.lastCode = 0x1E) ∧
        (gives (.channelPllUnlock (BitVec.ofNat 16 (2 ^ c.val))) fun r => r.cstate = .fenced ∧ r.err.lastCode = 0x25)) ∧
      (ch.ctl.inmchk = false → gives (.channelOvertemp c false) fun r => 3 ∈ r.ev.mchk ∧ r.cstate = ch.cstate) ∧
      (∀ x : BitVec 16, x &&& (x - 1) ≠ 0 → fatal (.channelPllUnlock x))) ∧
    (pairCompares s c = true →
      let other := (s.chan (partnerOf c)).err.copies
      let both := Gives (.pairedCompareTimeout c) s fun t => (t.chan c).cstate = .fenced ∧
        (t.chan (partnerOf c)).cstate = .fenced ∧ (t.chan c).err.lastCode = 0x14 ∧
        (t.chan (partnerOf c)).err.lastCode = 0x14 ∧ t.hub = h
      (∀ x, ch.err.copies = [x] → other = [] → both) ∧
      (∀ x y, ch.err.copies = [x] → other = [y] → outKind x = outKind y → x ≠ y → both) ∧
      (∀ v, ch.err.copies = [.vec v] → other = [.vec v] → Gives (.pairedCompareTimeout c) s fun t =>
        (t.chan c).cstate = ch.cstate ∧ (t.chan (partnerOf c)).cstate = (s.chan (partnerOf c)).cstate ∧
        (t.chan c).err.copies = [] ∧ (t.chan (partnerOf c)).err.copies = [] ∧
        ∀ e : Ch, e.val = c.val / 2 * 2 → (t.chan e).fn = sendVec (s.chan e).fn v)) ∧
    (memoriesClocked ch = true → ch.ctl.inmchk = false → gives (.controllerCoreCheck c) fun r =>
      1 ∈ r.ev.mchk ∧ r.err.ucc = true ∧ r.err.lastCode = 0x15 ∧ r.cstate = ch.cstate) ∧
    (memoriesClocked ch = true → ch.ctl.inmchk = true → gives (.controllerCoreCheck c) fun r =>
      r.cstate = .fenced ∧ r.err.lastCode = 0x16) ∧
    (managed h = true → fatal .maltsterLockstepMismatch ∧ fatal .hostPortInternalError) ∧
    (∀ b, exec (.lidSwitchLatch b) s = .next { s with hub := { h with supply := { h.supply with lidOpen := b } } }) ∧
    (∀ k : Fin 5, h.supply.aux = true → tamperSensed h k = true → fatal (.tamperDetect k) ∧
      Gives (.tamperDetect k) s fun t => t.hub.tamper = h.tamper ||| BitVec.ofNat 5 (2 ^ k.val) ∧
        t.hub.supply.tampered = true ∧ t.hub.cask = { Cask.reset with derives := false } ∧ t.hub.dap.level = 0 ∧
        t.hub.fuses = h.fuses) ∧
    (∀ ms, managed h = true → Gives (.availRecordWrite ms) s fun t =>
      t.hub.timebase = advanced (ms.toNat * 1000000) h.timebase ∧
      ((∀ d, (s.chan d).pwr.arm0 = false ∧ (s.chan d).pwr.arm1 = false) → t.chans = s.chans) ∧
      ((recordNow h).counter.toNat + 1 < 2 ^ 32 → (recordNow t.hub).up = t.hub.availUp ∧
        (recordNow t.hub).down = t.hub.availDown ∧ (recordNow t.hub).planned = t.hub.availPlan) ∧
      (t.hub.availPlan, t.hub.availUp, t.hub.availDown) =
        (if h.planned then (h.availPlan + ms, h.availUp, h.availDown)
        else if moduleUp s then (h.availPlan, h.availUp + ms, h.availDown)
        else (h.availPlan, h.availUp, h.availDown + ms))) ∧
    (∀ x, managed h = true → Gives (.telemetryThreshold c x) s fun t =>
      t.hub.telemetry = { h.telemetry with temp := h.telemetry.temp.set c.val x } ∧ t.chans = s.chans) ∧
    (memoriesClocked ch = true →
      (ch.err.capState = 0 ∨ ch.err.capState = 2 →
        gives (.capCtlArm c) fun r => r.err.capState = 1 ∧ r.shadow = none ∧ r.ctl = ch.ctl ∧ r.seq = ch.seq) ∧
      (ch.err.capState = 1 → gives (.capCtlCancel c) fun r => r = { ch with err := { ch.err with capState := 0 } }) ∧
      (captureDue ch = true → gives (.captureEdge c) fun r => r.shadow = some (shadowOf ch) ∧
        r.err.capState = (if ch.err.capFreeze then 3 else 2) ∧ frozen r = ch.err.capFreeze ∧ r.ctl = ch.ctl ∧
        r.arr = ch.arr))

/-- R381 to R386 and R409: the TAP registers and the mailbox, the unlock commands and the channel commands at level OWNER.
That a REG_WRITE which asks for DOZE becomes a request of management, stays BUSY and ends once no request stands is the
model's choice (log 99), and so is what a command of Obsum's test access answers (log 109). -/
def Obligations.DebugCommandsFollowTheirLevel : Prop :=
  ∀ (c : Ch) (s : State),
    let h := s.hub
    let d := h.dap
    let ch := s.chan c
    let busy := fun (k len : Nat) => managed h = true ∧ d.busy = true ∧ d.cmd.extractLsb' 0 8 = BitVec.ofNat 8 k ∧
      (d.cmd.extractLsb' 16 16).toNat = len
    let ends := fun (i : Instr) (x : BitVec 4) (P : State → Prop) => Gives i s fun t => t.hub.dap.busy = false ∧
      t.hub.dap.result = x ∧ P t
    let owner := fun (k len : Nat) => busy k len ∧ d.level ≠ 0 ∧ d.cmd.extractLsb' 8 8 = BitVec.ofNat 8 c.val
    (h.supply.aux = true →
      (∀ x ∈ [(Instr.extest, 0x00#8), (.samplePreload, 0x01), (.intest, 0x03)], Gives x.1 s fun t =>
        t.hub.dap.ir = x.2 ∧ (d.level = 0 → t.hub.dap.out = 0) ∧ t.chans = s.chans) ∧
      (Gives .idcode s fun t => t.hub.dap.ir = 0x02 ∧
        t.hub.dap.out = (Config.siliconRev ++ 0xA024#16 ++ Config.makerCode ++ 1#1 : Word).setWidth 33) ∧
      (Gives .tapBypass s fun t => t.hub.dap.ir = 0xFF ∧ t.hub.dap.out = 0) ∧
      (Gives .dapStatus s fun t => t.hub.dap.ir = 0x42 ∧ t.hub.dap.out.extractLsb' 0 2 = d.level ∧
        t.hub.dap.out.getLsbD 2 = d.busy ∧ t.hub.dap.out.extractLsb' 3 4 = d.result)) ∧
    (managed h = true →
      (∀ w, d.busy = true → Gives (.dapCmd w) s fun t => t.hub.dap.cmd = d.cmd ∧ t.hub.dap.busy = true) ∧
      (∀ w, d.busy = false → (w.extractLsb' 16 16).toNat ≠ 0 → Gives (.dapCmd w) s fun t =>
        t.hub.dap = { d with ir := 0x40, out := 0, cmd := w, words := (w.extractLsb' 16 16).toNat, data := [], resp := [] }) ∧
      (∀ w, d.busy = false → w.extractLsb' 16 16 = 0 → Gives (.dapCmd w) s fun t =>
        t.hub.dap.busy = dapKnown (w.extractLsb' 0 8).toNat ∧
        (dapKnown (w.extractLsb' 0 8).toNat = false → t.hub.dap.result = 6)) ∧
      (∀ w, d.busy = false → d.words ≠ 0 → Gives (.dapData w true) s fun t => t.hub.dap.data = d.data ++ [w] ∧
        t.hub.dap.words = d.words - 1 ∧
        (d.words = 1 → dapKnown (d.cmd.extractLsb' 0 8).toNat = true → t.hub.dap.busy = true)) ∧
      (∀ w x rest, d.resp = x :: rest → Gives (.dapData w false) s fun t => t.hub.dap.out = 1#1 ++ x ∧
        t.hub.dap.resp = rest)) ∧
    (∀ n len, busy 1 len → d.cmd.extractLsb' 8 8 = BitVec.ofNat 8 n → 1 ≤ n → n ≤ 64 → len = (n + 3) / 4 →
      lcState h.fuses = 2 →
      (h.cask.pwFail < 8 → passwordOk h ((dapBytes h).take n) = true →
        ends .pwUnlock 0 fun t => t.hub.dap.level = 1 ∧ t.hub.cask.unlocked = true) ∧
      (h.cask.pwFail < 8 → passwordOk h ((dapBytes h).take n) = false →
        ends .pwUnlock 1 fun t => t.hub.dap.level = d.level ∧ t.hub.cask.pwFail = h.cask.pwFail + 1) ∧
      (8 ≤ h.cask.pwFail → ends .pwUnlock 2 fun t => t.hub.dap.level = d.level ∧ t.hub.cask = h.cask)) ∧
    (∀ n, busy 2 0 → d.cmd.extractLsb' 8 8 = BitVec.ofNat 8 n →
      (n = 1 ∧ lcState h.fuses = 2) ∨ (n = 2 ∧ lcState h.fuses ≠ 0 ∧ lcState h.fuses ≠ 4) →
      ends .getChallenge 0 fun t => t.hub.dap.resp.length = 24 ∧ ∃ k, t.hub.cask.challenge = some k ∧
        k.level = BitVec.ofNat 2 n ∧ k.state = lcState h.fuses ∧ k.floor = floorOf h.fuses ∧
        k.issued = h.timebase.count ∧ k.used = false) ∧
    (∀ k, busy 3 24 → d.cmd.extractLsb' 8 8 = 0 → h.cask.challenge = some k →
      (k.used = true ∨ within60 h k.issued = false → ends .crResponse 3 fun t => t.hub.dap.level = d.level) ∧
      (k.used = false → within60 h k.issued = true →
        let ok := signed (unlockKey h k.level) (Config.sha384 (challengeRecord k)) (dapBytes h)
        ends .crResponse (if ok then 0 else 1) fun t => t.hub.dap.level = (if ok then k.level else d.level) ∧
          t.hub.cask.challenge = some { k with used := true })) ∧
    (busy 4 0 → d.cmd.extractLsb' 8 8 = 0 → lcState h.fuses ≠ 0 → ends .dbgClose 0 fun t => t.hub.dap.level = 0) ∧
    (busy 5 28 → d.cmd.extractLsb' 8 8 = 0 → lcState h.fuses = 0 → ends .provision 0 fun t =>
      lcState t.hub.fuses = 1 ∧ t.hub.fuses.deviceSecret.isSome = true ∧ t.hub.fuses.obsumDigest.isSome = true ∧
        t.hub.fuses.obsumKek.isSome = true ∧ t.hub.fuses.floor = h.fuses.floor) ∧
    (∀ v : Word, owner 0x10 1 → regReadable h ch = true → (dapWord h 0).toNat < 0x10000 →
      ioRead h ch (dapWord h 0).toNat = some v →
      ends .regRead 0 fun t => t.hub.dap.resp = [v] ∧ t.chan c = ioLatch h (dapWord h 0).toNat ch) ∧
    (owner 0x11 2 → d.asked = false → regWritable h ch = true → dapWord h 0 = 0x1CC0 → (dapWord h 1).getLsbD 1 = true →
      Gives .regWrite s fun t => t.hub.dap.busy = true ∧ t.hub.dap.asked = true ∧ (t.chan c).pwr.reqHost = true) ∧
    (∀ len, busy 0x11 len → d.asked = true → d.cmd.extractLsb' 8 8 = BitVec.ofNat 8 c.val → ch.cstate ≠ .doze →
      ch.pwr.reqHost = false → ends .regWrite 0 fun t => t.chans = s.chans) ∧
    (owner 0x11 2 → d.asked = false → regWritable h ch = true → (dapWord h 0).toNat < 0x10000 →
      ioAssigned h ch (dapWord h 0).toNat = true → outBlocked ch (dapWord h 0).toNat (dapWord h 1) = false →
      isStackPtr (dapWord h 0).toNat = false → asksDoze (dapWord h 0).toNat (dapWord h 1) = false →
      ends .regWrite 0 fun t => t.chan c = ioWrite h (dapWord h 0).toNat (dapWord h 1) ch) ∧
    (owner 0x12 3 → h.supply.rails = true → dapWord h 0 = 9 → 1 ≤ (dapWord h 2).toNat → (dapWord h 2).toNat ≤ 1024 →
      (dapWord h 1).toNat + (dapWord h 2).toNat ≤ 262144 → frozen ch = true ∨ ch.cstate = .fenced → ch.mem.dmarks = [] →
      ends .memRead 0 fun t => t.hub.dap.resp = (List.range (dapWord h 2).toNat).map fun k =>
        memWord ch.mem.dmem (4 * ((dapWord h 1).toNat + k))) ∧
    (owner 0x13 0 → frozen ch = true → ends .freezeRelease 0 fun t => frozen (t.chan c) = false ∧
      (t.chan c).err.capState = 2) ∧
    (owner 0x14 0 → restartable h = true → ch.err.mode ≠ 2 → isHeld h c = false → ends .chReset 0 fun t =>
      (t.chan c).ctl = Ctl.reset ∧ (t.chan c).cstate = .starting) ∧
    (owner 0x15 0 → started ch = true → frozen ch = false → ends .dbgBreak 0 fun t =>
      t.chan c = { ch with ev := { ch.ev with brkDebug := true } }) ∧
    (owner 0x16 0 → started ch = true → frozen ch = false → ends .dbgStep 0 fun t =>
      t.chan c = { ch with ev := { ch.ev with stepArmed := true } }) ∧
    (∀ x ∈ [(Instr.regRead, 0x10), (.regWrite, 0x11), (.memRead, 0x12), (.freezeRelease, 0x13), (.chReset, 0x14),
        (.dbgBreak, 0x15), (.dbgStep, 0x16)], ∀ len, busy x.2 len → d.level = 0 → d.asked = false →
      ends x.1 4 fun t => t.chans = s.chans) ∧
    (managed h = true → d.busy = true → 0x80 ≤ (d.cmd.extractLsb' 0 8).toNat →
      (d.level.toNat < 2 → ends .vendorTestCommand 4 fun t => t.chans = s.chans) ∧
      (2 ≤ d.level.toNat → Gives .vendorTestCommand s fun t => t.hub.dap.busy = false ∧ t.hub.dap.data = [] ∧
        t.hub.dap.level = d.level ∧ t.hub.cask = h.cask ∧ t.chans = s.chans))

/-- R106, R363, R372, R376, R377, R381, R387 to R389, R401 and R435: what each service of the Maltster does and answers; a
signed command without its authorisation is refused and changes nothing else. The form of the answers that a standard fixes
is log 103; that ACTIVATE_FIRMWARE is refused for a slot that no update has written is the model's choice (log 102), and so
are the nonce as Config.nonce of the hub's counter (log 10), the micro-cycles that a YIELD has met (log 27) and the writing
of flash by an erase and programming of the blocks that it touches (log 130). -/
def Obligations.ManagementServicesAct : Prop :=
  ∀ (c : Ch) (s : State) (a : Auth),
    let h := s.hub
    let ch := s.chan c
    let v := h.services
    let tells := fun (i : Instr) (r : Reply) (P : State → Prop) => Gives i s fun t => t.hub.services.reply = some r ∧ P t
    let refused := fun (i : Instr) => exec i s = .next (s.reply .refused)
    (managed h = true →
      (∀ e, Gives (.mctpControl e) s fun t => t.hub.services.eid = e ∧ t.chans = s.chans) ∧
      (Gives .getVersion s fun t => t.hub.services.spdm = 1 ∧ t.hub.services.agreed = false) ∧
      (v.spdm ≠ 0 → Gives .getCapabilities s fun t => t.hub.services.spdm = 2) ∧
      (v.spdm = 0 → refused .getCapabilities) ∧
      (2 ≤ v.spdm → Gives (.negotiateAlgorithms true true) s fun t => t.hub.services.agreed = true) ∧
      (∀ p q, p = false ∨ q = false → refused (.negotiateAlgorithms p q)) ∧
      (∀ k, h.cask.attest = true → v.agreed = true → h.fuses.deviceSecret = some k →
        tells .getDigests (.bytes (digestBytes (Config.sha384 (Config.certChain k)))) (fun _ => True) ∧
        tells .getCertificate (.bytes (Config.certChain k)) (fun _ => True) ∧
        ∀ n, ∃ m, tells (.challenge n) (.bytes (Config.attestSign k (natBytes 32 n.toNat ++ m))) (fun _ => True)) ∧
      (v.agreed = false → refused .getDigests ∧ refused .getCertificate ∧ (∀ n, refused (.challenge n)) ∧
        ∀ n, refused (.getMeasurements n)) ∧
      (v.agreed = true → tells (.getMeasurements 0) (.bytes [9]) (fun _ => True) ∧
        tells (.getMeasurements 1) (.bytes (digestBytes Config.romDigest)) (fun _ => True) ∧
        tells (.getMeasurements 9) (.bytes [h.dap.level.setWidth 8, if h.cask.unlocked then 1 else 0]) (fun _ => True))) ∧
    (updatable h = true → ∀ dev, h.boot.slot ≠ some dev → Memory.wf (flashOf h dev).bytes = true →
      (∀ addr data, addr + data.length ≤ 0x1F00000 → tells (.pldmFirmwareUpdate dev addr data) .done fun t =>
        updating t.hub dev = true ∧ updating t.hub (!dev) = updating h (!dev) ∧ flashOf t.hub (!dev) = flashOf h (!dev) ∧
        ((eraseUnit (Config.sfdp dev)).isSome = true →
          (∀ k < data.length, memByte (flashOf t.hub dev).bytes (addr + k) = data.getD k 0) ∧
          (∀ k, 64 ≤ k → memByte (flashOf t.hub dev).bytes k = hostPut (flashOf h dev).bytes addr (data.map some) k)) ∧
        (eraseUnit (Config.sfdp dev) = none → updating h dev = true → slotState (flashOf h dev) = 0 → ∀ k < data.length,
          memByte (flashOf t.hub dev).bytes (addr + k) = memByte (flashOf h dev).bytes (addr + k) &&& data.getD k 0)) ∧
      (∀ addr data, 0x1F00000 < addr + data.length → refused (.pldmFirmwareUpdate dev addr data)) ∧
      (updating h dev = true → tells (.activateFirmware dev) .done fun t =>
        ((eraseUnit (Config.sfdp dev)).isSome = true → slotState (flashOf t.hub dev) = 2 ∧
          slotSeq (flashOf t.hub dev) = slotSeq (flashOf h (!dev)) + 1) ∧
        updating t.hub dev = false ∧ flashOf t.hub (!dev) = flashOf h (!dev)) ∧
      (updating h dev = false → refused (.activateFirmware dev))) ∧
    (updatable h = true → ∀ dev addr data, h.boot.slot = some dev →
      refused (.pldmFirmwareUpdate dev addr data) ∧ refused (.activateFirmware dev)) ∧
    (firmware h = true →
      (∀ on, tells (.pldmMonitoring (.eventReceiver on)) .done fun t => t.hub.services.receiver = on) ∧
      (tells (.pldmMonitoring (.sensor 0)) (.bytes (natBytes 4 h.telemetry.temp[0].toNat)) fun _ => True) ∧
      (tells .getNonce (.nonce (Config.nonce h.nonces)) fun t => t.hub.nonces = h.nonces + 1 ∧ t.hub.services.given =
        (v.given.filter fun n => !n.used && within60 h n.issued) ++
          [{ value := Config.nonce h.nonces, issued := h.timebase.count, used := false }]) ∧
      (∀ first, logHolds h.log first = true → tells (.readLog first 1)
        (.bytes (natBytes 16 (h.log.ring.toList.getD (first.toNat % 256) 0).toNat)) fun _ => True) ∧
      (nonceOk h a = false → ∀ e w sa ha u, refused (.enrol e a) ∧ (∀ n, refused (.transition n a)) ∧
        refused (.commitFloor w a) ∧ refused (.setOwnerFloor w a) ∧ refused (.setPassword sa ha a) ∧
        refused (.setSparge u a) ∧ refused (.mgmtYield c a) ∧ refused (.restart c a)) ∧
      (∀ e m, authorised h (obsumKey h) "ENROL"
          ((digestBytes (Config.sha384 e.ownerKey) ++ e.material).map (·.toNat)) a = true →
        h.cask.attest = true → h.fuses.deviceSecret.bind (fun k => Config.openMaterial k e.material) = some m →
        lcState h.fuses = 1 → h.supply.lidOpen = false → h.returnDue = false → tells (.enrol e a) .done fun t =>
          lcState t.hub.fuses = 2 ∧ t.hub.fuses.ownerDigest = some (Config.sha384 e.ownerKey) ∧
            t.hub.fuses.floor = h.fuses.floor) ∧
      (∀ n, authorised h (transitionKey n h) "TRANSITION" [n] a = true → tells (.transition n a) .done fun t =>
        lcState t.hub.fuses = n ∧ lcState h.fuses < n ∧ (n = 3 ∨ n = 4)) ∧
      (∀ w, authorised h (obsumKey h) "COMMIT_FLOOR" [w.toNat] a = true →
        let g := slotGens h.boot.containers
        (w.toNat ≤ (floorOf h.fuses).toNat → tells (.commitFloor w a) .notAbove fun t => t.hub.fuses = h.fuses) ∧
        ((floorOf h.fuses).toNat < w.toNat → g.1 < w.toNat ∨ g.2 < w.toNat →
          tells (.commitFloor w a) .wouldBrick fun t => t.hub.fuses = h.fuses) ∧
        ((floorOf h.fuses).toNat < w.toNat → w.toNat ≤ g.1 → w.toNat ≤ g.2 → 64 ≤ h.fuses.floor.length →
          tells (.commitFloor w a) .exhausted fun t => t.hub.fuses = h.fuses) ∧
        ((floorOf h.fuses).toNat < w.toNat → w.toNat ≤ g.1 → w.toNat ≤ g.2 → h.fuses.floor.length < 64 →
          tells (.commitFloor w a) .done fun t => t.hub.fuses = { h.fuses with floor := w :: h.fuses.floor } ∧
            nonceOk t.hub a = false)) ∧
      (∀ r, h.cask.owner = some r →
        (∀ w, authorised h (ownerKeyOf h) "SET_OWNER_FLOOR" [w.toNat] a = true → r.floor.toNat < w.toNat →
          (∀ k ∈ h.boot.containers, ownKind k = true → w.toNat ≤ k.gen.toNat) →
          tells (.setOwnerFloor w a) .done fun t => t.hub.cask.owner = some { r with floor := w }) ∧
        (∀ sa ha, authorised h (ownerKeyOf h) "SET_PASSWORD" (ha.toNat :: sa.map (·.toNat)) a = true →
          tells (.setPassword sa ha a) .done fun t =>
            t.hub.cask.owner = some { r with password := some { salt := sa, hash := ha } })) ∧
      (∀ u, authorised h (if lcState h.fuses = 2 then ownerKeyOf h else obsumKey h) "SET_SPARGE" [u.toNat] a = true →
        (500 ≤ u.toNat → u.toNat ≤ 1000000 → tells (.setSparge u a) .done fun t => t.hub.services.sparge = u) ∧
        (u.toNat < 500 ∨ 1000000 < u.toNat → tells (.setSparge u a) .refused fun t => t.hub.services.sparge = v.sparge)) ∧
      (authorised h (ownerKeyOf h) "YIELD" [c.val] a = true → memoriesClocked ch = true → ch.err.mode ≠ 2 →
        ch.trap.state ≠ 1 → ch.trap.state ≠ 2 →
        (∀ x, ch.seq.cur = some x → ch.trap.yreq = none → ∃ n ≤ 3,
          (ch.trap.state ≠ 3 → x.ucount ≠ 0 ∨ dRound x.descA ≠ 5 → n = 0) ∧ tells (.mgmtYield c a) .done fun t => t.chan c =
            { ch with
              free := ch.free + 1
              trap := { ch.trap with yreq := some { ctl := false, mgmt := true, cycles := n } } }) ∧
        (ch.seq.cur = none → tells (.mgmtYield c a) .done fun t => (t.chan c).seq.stop = true ∧
          (t.chan c).trap.ystat = 2)) ∧
      (authorised h (ownerKeyOf h) "RESTART" [c.val] a = true → restartable h = true → ch.err.mode ≠ 2 →
        isHeld h c = false → tells (.restart c a) .done fun t => (t.chan c).ctl = Ctl.reset ∧
          (t.chan c).cstate = .starting)) ∧
    (h.supply.aux = false → ∀ dev addr,
      (∀ data, Gives (.flashServiceAccess dev addr (.write data)) s fun t => flashOf t.hub (!dev) = flashOf h (!dev) ∧
        t.chans = s.chans ∧
        (addr + data.length ≤ 0x1F00000 → (flashOf t.hub dev).records = (flashOf h dev).records) ∧
        (addr + data.length ≤ 0x1F00000 → Memory.wf (flashOf h dev).bytes = true →
          (eraseUnit (Config.sfdp dev)).isSome = true →
          ∀ k, memByte (flashOf t.hub dev).bytes k = hostPut (flashOf h dev).bytes addr (data.map some) k) ∧
        (0x1F00000 ≤ addr → addr + data.length ≤ 0x2000000 → (flashOf t.hub dev).bytes = (flashOf h dev).bytes ∧
          ∀ k < data.length, deviceByte (flashOf t.hub dev) (addr + k) = data.getD k 0)) ∧
      (∀ n, Gives (.flashServiceAccess dev addr (.read n)) s fun t => t = { s with hub := { h with served := t.hub.served } } ∧
        t.hub.served.length = n ∧
        ∀ k < n, addr + k < 0x1F00000 → t.hub.served.getD k 0 = memByte (flashOf h dev).bytes (addr + k)))

/-! ### The whole machine -/

/-- R31, R171, R191, R197, R231, R235, R344, R351, R371 and the register cards: what the state right after power-up holds
where the spec gives a value, its empty queue, and the invariants below at reset. One state for all of it is the model's
choice (log 110), as are the empty queue (log 1) and the form of the memories (log 12); the function's MSE and vector masks
are PCI Express's (log 7). -/
def Obligations.ResetHoldsTheSpecsValues : Prop :=
  State.reset.pending = [] ∧ State.reset.memWf = true ∧ State.reset.hub.fuses.floorOrdered ∧
    State.reset.hub.supply.perst = true ∧ State.reset.hub.log.head = 0 ∧ State.reset.hub.telemetry.threshold = 1520 ∧
    ∀ c : Ch,
      let ch := State.reset.chan c
      ch.cstate = .starting ∧ ch.ctl.bounded ∧
      ch.arr.c = 0 ∧ ch.arr.x = 0 ∧ ch.arr.t = 0 ∧ (∀ i < 1048576, ch.arr.m.getLsbD i = true) ∧ (∀ p, planeOf ch p = 0) ∧
      ch.ctl.pc = 0 ∧ ch.ctl.ds = [] ∧ ch.ctl.rs = [] ∧ statusWord ch.ctl = 0 ∧ ch.ctl.fpctl = 0 ∧ ch.ctl.depth = 0 ∧
      ch.ctl.vl = 0 ∧ ch.ctl.vs = [] ∧ ch.ctl.repc = 0 ∧ (∀ n : Fin 8, ch.ctl.a[n] = 0) ∧
      ch.ev.intPend = 0 ∧ ch.ev.intEn = 0 ∧ ch.ev.trapCause = 0 ∧
      (∀ a, memByte ch.mem.dmem a = 0 ∧ memByte ch.mem.imem a = 0) ∧
      ch.seq.queue = [] ∧ ch.seq.cur = none ∧ ch.seq.stop = false ∧ ch.seq.stepcount = 0 ∧
      ch.arr.stallLimit = 0x01000000 ∧ (∀ k : Fin 16, ch.fmt.gfdA[k] = 0x80 ∧ ch.fmt.gfdB[k] = 0) ∧
      ch.lau.lpos = 2176 ∧ ch.lau.la = 0 ∧ ch.rack.rtimeout = 100000 ∧ ch.rack.inwin = 0x3FFF0000 ∧
      (∀ q < 256, (qpAt ch q).enable = false ∧ (qpAt ch q).prio = true ∧ (qpAt ch q).modCount = 1) ∧
      ch.mill.ureset = true ∧ ch.keg.downLimit = 10000 ∧ ch.pwr.autoIdle = true ∧
      (∀ v < 260, vecMasked ch.fn v = true) ∧ ch.fn.mse = false ∧ ch.err.capState = 0

/-- No instruction of a controller stops the machine, and none waits on or touches another channel or the hub: what it
leaves in its channel depends on that channel and the hub alone, and everything else, the queue included, stays, but that an
OUT which fires a compare unit under TB_WAKE wakes the PAIRED partner too (R419). -/
def Obligations.ControllerInstructionsStayInTheirChannel : Prop :=
  ∀ (i : Instr) (c : Ch), ctlOf i = some c →
    ∃ f : Chan → Hub → Chan, ∀ s, ∃ t, exec i s = .next t ∧ t.chan c = f (s.chan c) s.hub ∧ t.hub = s.hub ∧
      t.pending = s.pending ∧ ∀ d, d ≠ c → t.chan d = s.chan d ∨
        ((i = .outs c ∨ ∃ b, i = .ioOut c b) ∧ d ∈ pairOf s c ∧ t.chan d = dozeWake (bypassOpen s.hub) 2 (s.chan d))

/-- R172, R182 and R188: a controller instruction keeps the cells in core, the loop levels, VL and the vector stack within
their bounds, whatever it does and whatever trap it takes. -/
def Obligations.ControllerInstructionsKeepTheirBounds : Prop :=
  ∀ (i : Instr) (c : Ch) (s t : State), ctlOf i = some c → (s.chan c).ctl.bounded → exec i s = .next t →
    (t.chan c).ctl.bounded

/-- R371, R372 and R376: no step moves the life-cycle state back, lowers the fuse floor or takes away a step of its
thermometer, or leaves a programmed secret, key or digest unprogrammed. -/
def Obligations.LifeCycleAndFloorNeverMoveBack : Prop :=
  ∀ s t : State, step s = .next t →
    let f := s.hub.fuses
    let g := t.hub.fuses
    lcState f ≤ lcState g ∧ (floorOf f).toNat ≤ (floorOf g).toNat ∧ (∃ new, g.floor = new ++ f.floor) ∧
      (f.deviceSecret.isSome = true → g.deviceSecret.isSome = true) ∧
      (f.obsumDigest.isSome = true → g.obsumDigest.isSome = true) ∧
      (f.ownerDigest.isSome = true → g.ownerDigest.isSome = true)

/-- R371 and R372: every step keeps the floor thermometer in order, and within its 64 steps. -/
def Obligations.EveryStepKeepsTheFloorOrder : Prop :=
  ∀ s t : State, s.hub.fuses.floorOrdered → step s = .next t → t.hub.fuses.floorOrdered

/-- Every step keeps every memory, the bytes of IMEM, DMEM, HBM and flash, the plane sheets and the MSI-X tables, in the
canonical form of log 12, whatever the state it starts from. -/
def Obligations.EveryStepKeepsMemoriesCanonical : Prop :=
  ∀ s t : State, s.memWf = true → step s = .next t → t.memWf = true
end

