-- ==== Sys2Proof/Laws/Memory.lean ====
section
/-! SUPPORT. The sparse maps and the byte memories: every write keeps the canonical form, a read after a write, and
equality of canonical maps that read the same. -/

namespace Sys2Proof.Machine

/-! ### Sparse maps -/

section Sparse
variable {α : Type} [DecidableEq α] {d : α}

/-- The canonical form from a lower bound holds from every lower one. -/
theorem sparseWfFrom_mono {lo hi : Nat} {m : List (Nat × α)} (h : lo ≤ hi) (hm : sparseWfFrom d hi m = true) :
    sparseWfFrom d lo m = true := by
  cases m with
  | nil => rfl
  | cons p t =>
    simp only [sparseWfFrom, Bool.and_eq_true, decide_eq_true_eq] at hm ⊢
    exact ⟨⟨Nat.le_trans h hm.1.1, hm.1.2⟩, hm.2⟩

/-- A canonical map reads its default below its bound. -/
theorem sparseGet_below {lo a : Nat} {m : List (Nat × α)} (hm : sparseWfFrom d lo m = true) (ha : a < lo) :
    sparseGet d m a = d := by
  induction m generalizing lo with
  | nil => rfl
  | cons p t ih =>
    simp only [sparseWfFrom, Bool.and_eq_true, decide_eq_true_eq] at hm
    rw [sparseGet, if_neg (by omega)]
    exact ih hm.2 (by omega)

/-- Every write at or above the bound keeps the canonical form. -/
theorem sparseSet_wfFrom {lo a : Nat} {x : α} {m : List (Nat × α)} (hm : sparseWfFrom d lo m = true) (ha : lo ≤ a) :
    sparseWfFrom d lo (sparseSet d m a x) = true := by
  induction m generalizing lo with
  | nil => by_cases hx : x = d <;> simp [sparseSet, sparseWfFrom, hx, ha]
  | cons p t ih =>
    obtain ⟨k, v⟩ := p
    simp only [sparseWfFrom, Bool.and_eq_true, decide_eq_true_eq] at hm
    obtain ⟨⟨hk, hv⟩, ht⟩ := hm
    rw [sparseSet]
    split
    · split
      · simp [sparseWfFrom, hk, hv, ht]
      · next h hx => simp [sparseWfFrom, ha, hx, hv, Nat.succ_le_of_lt h, ht]
    · split
      · next h => subst h; split
                  · exact sparseWfFrom_mono (by omega) ht
                  · next hx => simp [sparseWfFrom, hk, hx, ht]
      · have := ih ht (by omega)
        simp [sparseWfFrom, hk, hv, this]

/-- Every write keeps the canonical form. -/
theorem sparseSet_wf {a : Nat} {x : α} {m : List (Nat × α)} (hm : sparseWf d m = true) :
    sparseWf d (sparseSet d m a x) = true := sparseSet_wfFrom hm (Nat.zero_le a)

/-- A read after a write gives the value written at its key and the old value elsewhere. -/
theorem sparseGet_sparseSet {lo a k : Nat} {x : α} {m : List (Nat × α)} (hm : sparseWfFrom d lo m = true) :
    sparseGet d (sparseSet d m a x) k = if k = a then x else sparseGet d m k := by
  induction m generalizing lo with
  | nil => by_cases hx : x = d <;> by_cases hk : k = a <;> simp [sparseSet, sparseGet, hx, hk]
  | cons p t ih =>
    obtain ⟨q, v⟩ := p
    simp only [sparseWfFrom, Bool.and_eq_true, decide_eq_true_eq] at hm
    obtain ⟨_, ht⟩ := hm
    rw [sparseSet]
    split
    · next h =>
      split
      · next hx =>
        by_cases hk : k = a
        · subst hk; rw [if_pos rfl, hx, sparseGet, if_neg (by omega)]
          exact sparseGet_below ht (by omega)
        · rw [if_neg hk]
      · simp [sparseGet]
    · split
      · next h =>
        subst h
        split
        · next hx =>
          by_cases hk : k = a
          · subst hk; rw [if_pos rfl, hx]; exact sparseGet_below ht (by omega)
          · simp [sparseGet, hk]
        · by_cases hk : k = a <;> simp [sparseGet, hk]
      · next h1 h2 =>
        by_cases hk : k = q
        · subst hk; rw [sparseGet, if_pos rfl, if_neg (fun e => h2 e.symm), sparseGet, if_pos rfl]
        · simp [sparseGet, hk, ih ht]

/-- Two canonical maps that read the same everywhere are equal: equal maps are equal data. -/
theorem sparse_ext {lo : Nat} {m n : List (Nat × α)} (hm : sparseWfFrom d lo m = true) (hn : sparseWfFrom d lo n = true)
    (h : ∀ a, sparseGet d m a = sparseGet d n a) : m = n := by
  induction m generalizing lo n with
  | nil =>
    cases n with
    | nil => rfl
    | cons p t =>
      simp only [sparseWfFrom, Bool.and_eq_true, decide_eq_true_eq] at hn
      have := h p.1
      simp only [sparseGet, if_pos] at this
      exact absurd this.symm hn.1.2
  | cons p t ih =>
    obtain ⟨k, v⟩ := p
    simp only [sparseWfFrom, Bool.and_eq_true, decide_eq_true_eq] at hm
    obtain ⟨⟨hk, hv⟩, ht⟩ := hm
    cases n with
    | nil =>
      have := h k
      simp only [sparseGet, if_pos] at this
      exact absurd this hv
    | cons q u =>
      obtain ⟨k', v'⟩ := q
      simp only [sparseWfFrom, Bool.and_eq_true, decide_eq_true_eq] at hn
      obtain ⟨⟨hk', hv'⟩, hu⟩ := hn
      have hkk : k = k' := by
        rcases Nat.lt_trichotomy k k' with hlt | heq | hgt
        · have := h k
          rw [sparseGet, if_pos rfl, sparseGet, if_neg (by omega), sparseGet_below hu (by omega)] at this
          exact absurd this hv
        · exact heq
        · have := h k'
          rw [sparseGet, if_neg (by omega), sparseGet_below ht (by omega), sparseGet, if_pos rfl] at this
          exact absurd this.symm hv'
      subst hkk
      have hvv : v = v' := by have := h k; simpa [sparseGet] using this
      subst hvv
      congr 1
      refine ih ht hu fun a => ?_
      by_cases ha : a = k
      · subst ha; rw [sparseGet_below ht (by omega), sparseGet_below hu (by omega)]
      · have := h a; simpa [sparseGet, ha] using this

end Sparse

/-! ### Byte memories -/

@[simp] theorem Memory.wf_nil : Memory.wf [] = true := rfl

@[simp] theorem memByte_nil (a : Nat) : memByte [] a = 0 := rfl

/-- Storing a byte keeps the canonical form. -/
theorem memSetByte_wf {m : List (Nat × Byte)} {a : Nat} {x : Byte} (h : Memory.wf m = true) :
    Memory.wf (memSetByte m a x) = true := sparseSet_wf h

/-- Storing a half-word keeps the canonical form. -/
theorem memSetHalf_wf {m : List (Nat × Byte)} {a : Nat} {x : Half} (h : Memory.wf m = true) :
    Memory.wf (memSetHalf m a x) = true := memSetByte_wf (memSetByte_wf h)

/-- Storing a word keeps the canonical form. -/
theorem memSetWord_wf {m : List (Nat × Byte)} {a : Nat} {x : Word} (h : Memory.wf m = true) :
    Memory.wf (memSetWord m a x) = true := memSetHalf_wf (memSetHalf_wf h)

/-- Storing consecutive bytes keeps the canonical form. -/
theorem memSetBytes_wf {bs : List Byte} {m : List (Nat × Byte)} {a : Nat} (h : Memory.wf m = true) :
    Memory.wf (memSetBytes m a bs) = true := by
  induction bs generalizing m a with
  | nil => exact h
  | cons b t ih => exact ih (memSetByte_wf h)

/-- Reading a byte after storing one. -/
theorem memByte_memSetByte {m : List (Nat × Byte)} {a k : Nat} {x : Byte} (h : Memory.wf m = true) :
    memByte (memSetByte m a x) k = if k = a then x else memByte m k := sparseGet_sparseSet (lo := 0) h

/-- Reading a byte after storing a half-word. -/
theorem memByte_memSetHalf {m : List (Nat × Byte)} {a k : Nat} {x : Half} (h : Memory.wf m = true) :
    memByte (memSetHalf m a x) k =
      if k = a + 1 then x.extractLsb' 8 8 else if k = a then x.extractLsb' 0 8 else memByte m k := by
  rw [memSetHalf, memByte_memSetByte (memSetByte_wf h), memByte_memSetByte h]

/-- The bytes of the half-words of a word. -/
theorem byte_of_half (x : Word) (lo i : Nat) (h : i + 8 ≤ 16) :
    (x.extractLsb' lo 16).extractLsb' i 8 = x.extractLsb' (lo + i) 8 := by
  ext j hj
  simp only [BitVec.getElem_extractLsb', BitVec.getLsbD_extractLsb', Nat.add_assoc]
  simp [show i + j < 16 by omega]

/-- Reading a byte after storing a word. -/
theorem memByte_memSetWord {m : List (Nat × Byte)} {a k : Nat} {x : Word} (h : Memory.wf m = true) :
    memByte (memSetWord m a x) k =
      if k = a + 3 then x.extractLsb' 24 8 else if k = a + 2 then x.extractLsb' 16 8
      else if k = a + 1 then x.extractLsb' 8 8 else if k = a then x.extractLsb' 0 8 else memByte m k := by
  rw [memSetWord, memByte_memSetHalf (memSetHalf_wf h), memByte_memSetHalf h]
  simp only [show a + 2 + 1 = a + 3 from rfl, byte_of_half x _ _ (by omega : 8 + 8 ≤ 16),
    byte_of_half x _ _ (by omega : 0 + 8 ≤ 16), Nat.add_zero, Nat.zero_add]

/-- A word stored and read at the same address. -/
theorem memWord_memSetWord {m : List (Nat × Byte)} {a : Nat} {x : Word} (h : Memory.wf m = true) :
    memWord (memSetWord m a x) a = x := by
  simp only [memWord, memByte_memSetWord h, if_true]
  rw [if_neg (by omega), if_neg (by omega), if_neg (by omega), if_neg (by omega), if_neg (by omega), if_neg (by omega),
    BitVec.extractLsb'_append_extractLsb'_eq_extractLsb' (by omega),
    BitVec.extractLsb'_append_extractLsb'_eq_extractLsb' (by omega),
    BitVec.extractLsb'_append_extractLsb'_eq_extractLsb' (by omega)]
  simp

/-- A byte outside consecutive bytes that are stored. -/
theorem memByte_memSetBytes_outside {bs : List Byte} {m : List (Nat × Byte)} {a k : Nat} (h : Memory.wf m = true)
    (hk : k < a ∨ a + bs.length ≤ k) : memByte (memSetBytes m a bs) k = memByte m k := by
  induction bs generalizing m a with
  | nil => rfl
  | cons b t ih =>
    simp only [List.length_cons] at hk
    rw [memSetBytes, ih (memSetByte_wf h) (by omega), memByte_memSetByte h, if_neg (by omega)]

/-- A byte inside consecutive bytes that are stored. -/
theorem memByte_memSetBytes_inside {bs : List Byte} {m : List (Nat × Byte)} {a j : Nat} (h : Memory.wf m = true)
    (hj : j < bs.length) : memByte (memSetBytes m a bs) (a + j) = bs.getD j 0 := by
  induction bs generalizing m a j with
  | nil => simp at hj
  | cons b t ih =>
    rw [memSetBytes]
    cases j with
    | zero => rw [memByte_memSetBytes_outside (memSetByte_wf h) (by omega), memByte_memSetByte h]; simp
    | succ j =>
      have := ih (m := memSetByte m a b) (a := a + 1) (j := j) (memSetByte_wf h) (by simpa using hj)
      rw [show a + (j + 1) = a + 1 + j by omega, this]; simp

/-- As many bytes are read as are asked for. -/
@[simp] theorem memBytes_length (m : List (Nat × Byte)) (a n : Nat) : (memBytes m a n).length = n := by
  induction n generalizing a with
  | zero => rfl
  | succ n ih => simp [memBytes, ih]

/-- One of the bytes read. -/
theorem memBytes_getD (m : List (Nat × Byte)) (a n j : Nat) (h : j < n) :
    (memBytes m a n).getD j 0 = memByte m (a + j) := by
  induction n generalizing a j with
  | zero => omega
  | succ n ih =>
    cases j with
    | zero => simp [memBytes]
    | succ j => rw [memBytes, List.getD_cons_succ, ih (a + 1) j (by omega)]; congr 1; omega

/-! ### Every memory of the machine at reset -/

/-- A channel's memories are in canonical form at reset. -/
theorem Chan.reset_memWf (n : Nat) : (Chan.reset n).memWf = true := rfl

/-- Every memory is in canonical form at reset. -/
theorem State.reset_memWf : State.reset.memWf = true := by decide

end Sys2Proof.Machine
end

