-- ==== Sys2Proof/Laws/State.lean ====
section
/-! SUPPORT. What each named update of the state leaves in each field, so that no proof unfolds a record update. -/

namespace Sys2Proof.Machine

/-! ### The whole machine -/

/-- A channel that is replaced is the new one. -/
@[simp] theorem State.chan_setChan_self (s : State) (c : Ch) (x : Chan) : (s.setChan c x).chan c = x := by
  simp [State.chan, State.setChan]

/-- Every other channel stays. -/
@[simp] theorem State.chan_setChan_ne (s : State) {c d : Ch} (x : Chan) (h : d ≠ c) :
    (s.setChan c x).chan d = s.chan d := by
  simp only [State.chan, State.setChan]
  rw [Vector.getElem_set_ne]
  exact fun e => h (Fin.ext e.symm)

/-- A channel after one is replaced. -/
theorem State.chan_setChan (s : State) (c d : Ch) (x : Chan) :
    (s.setChan c x).chan d = if d = c then x else s.chan d := by
  split
  · next h => subst h; simp
  · next h => simp [h]

@[simp] theorem State.setChan_hub (s : State) (c : Ch) (x : Chan) : (s.setChan c x).hub = s.hub := rfl
@[simp] theorem State.setChan_pending (s : State) (c : Ch) (x : Chan) : (s.setChan c x).pending = s.pending := rfl

/-- A channel replaced twice. -/
@[simp] theorem State.setChan_setChan (s : State) (c : Ch) (x y : Chan) :
    (s.setChan c x).setChan c y = s.setChan c y := by
  simp [State.setChan]

/-- A channel replaced by itself. -/
@[simp] theorem State.setChan_chan (s : State) (c : Ch) : s.setChan c (s.chan c) = s :=
  by simp [State.setChan, State.chan]

@[simp] theorem State.chan_of_hub (s : State) (c : Ch) (h : Hub) : ({ s with hub := h } : State).chan c = s.chan c :=
  rfl
@[simp] theorem State.chan_of_pending (s : State) (c : Ch) (q : List Instr) :
    ({ s with pending := q } : State).chan c = s.chan c := rfl
@[simp] theorem State.onHubOne_hub (s : State) (f : Hub → Hub) : (s.onHubOne f).hub = f s.hub := rfl
@[simp] theorem State.onHubOne_chans (s : State) (f : Hub → Hub) : (s.onHubOne f).chans = s.chans := rfl
@[simp] theorem State.onHubOne_pending (s : State) (f : Hub → Hub) : (s.onHubOne f).pending = s.pending := rfl
@[simp] theorem State.onHubOne_chan (s : State) (f : Hub → Hub) (c : Ch) : (s.onHubOne f).chan c = s.chan c := rfl
@[simp] theorem State.onOne_hub (s : State) (c : Ch) (f : Chan → Chan) : (s.onOne c f).hub = s.hub := rfl
@[simp] theorem State.onOne_pending (s : State) (c : Ch) (f : Chan → Chan) : (s.onOne c f).pending = s.pending := rfl
@[simp] theorem State.onOne_chan_self (s : State) (c : Ch) (f : Chan → Chan) : (s.onOne c f).chan c = f (s.chan c) := by
  simp [State.onOne]
@[simp] theorem State.onOne_chan_ne (s : State) {c d : Ch} (f : Chan → Chan) (h : d ≠ c) :
    (s.onOne c f).chan d = s.chan d := by simp [State.onOne, h]

/-- Work on several channels leaves the hub. -/
@[simp] theorem State.onAll_hub (s : State) (cs : List Ch) (f : Chan → Chan) : (s.onAll cs f).hub = s.hub := by
  induction cs generalizing s with
  | nil => rfl
  | cons c t ih => exact ih (s.onOne c f)

/-- Work on several channels leaves the queue. -/
@[simp] theorem State.onAll_pending (s : State) (cs : List Ch) (f : Chan → Chan) :
    (s.onAll cs f).pending = s.pending := by
  induction cs generalizing s with
  | nil => rfl
  | cons c t ih => exact ih (s.onOne c f)

/-- Work on several channels leaves the others. -/
theorem State.onAll_chan_ne (s : State) (cs : List Ch) (f : Chan → Chan) (d : Ch) (h : d ∉ cs) :
    (s.onAll cs f).chan d = s.chan d := by
  induction cs generalizing s with
  | nil => rfl
  | cons c t ih =>
    rw [List.mem_cons, not_or] at h
    exact (ih (s.onOne c f) h.2).trans (State.onOne_chan_ne s f h.1)

/-- A command on one channel answers a next state with that channel alone changed. -/
theorem onChan_next {c : Ch} {f : Chan → Chan} {s t : State} (h : onChan c f s = .next t) :
    t = s.setChan c (f (s.chan c)) := by simpa [onChan] using h.symm

/-- A command on the hub answers a next state with the hub alone changed. -/
theorem onHub_next {f : Hub → Hub} {s t : State} (h : onHub f s = .next t) : t = { s with hub := f s.hub } := by
  simpa [onHub] using h.symm

/-- A command on one channel and the hub answers a next state with those two changed. -/
theorem onBoth_next {c : Ch} {f : Chan → Hub → Chan × Hub} {s t : State} (h : onBoth c f s = .next t) :
    t = { s.setChan c (f (s.chan c) s.hub).1 with hub := (f (s.chan c) s.hub).2 } := by simpa [onBoth] using h.symm

/-! ### A vector that a channel sends -/

@[simp] theorem chanVec_cstate (ch : Chan) (v : Nat) : (chanVec ch v).cstate = ch.cstate :=
  by unfold chanVec; split <;> rfl
@[simp] theorem chanVec_ctl (ch : Chan) (v : Nat) : (chanVec ch v).ctl = ch.ctl := by unfold chanVec; split <;> rfl
@[simp] theorem chanVec_ev (ch : Chan) (v : Nat) : (chanVec ch v).ev = ch.ev := by unfold chanVec; split <;> rfl
@[simp] theorem chanVec_mem (ch : Chan) (v : Nat) : (chanVec ch v).mem = ch.mem := by unfold chanVec; split <;> rfl
@[simp] theorem chanVec_arr (ch : Chan) (v : Nat) : (chanVec ch v).arr = ch.arr := by unfold chanVec; split <;> rfl
@[simp] theorem chanVec_seq (ch : Chan) (v : Nat) : (chanVec ch v).seq = ch.seq := by unfold chanVec; split <;> rfl
@[simp] theorem chanVec_trap (ch : Chan) (v : Nat) : (chanVec ch v).trap = ch.trap := by unfold chanVec; split <;> rfl
@[simp] theorem chanVec_fmt (ch : Chan) (v : Nat) : (chanVec ch v).fmt = ch.fmt := by unfold chanVec; split <;> rfl
@[simp] theorem chanVec_lau (ch : Chan) (v : Nat) : (chanVec ch v).lau = ch.lau := by unfold chanVec; split <;> rfl
@[simp] theorem chanVec_rack (ch : Chan) (v : Nat) : (chanVec ch v).rack = ch.rack := by unfold chanVec; split <;> rfl
@[simp] theorem chanVec_hbm (ch : Chan) (v : Nat) : (chanVec ch v).hbm = ch.hbm := by unfold chanVec; split <;> rfl
@[simp] theorem chanVec_mill (ch : Chan) (v : Nat) : (chanVec ch v).mill = ch.mill := by unfold chanVec; split <;> rfl
@[simp] theorem chanVec_keg (ch : Chan) (v : Nat) : (chanVec ch v).keg = ch.keg := by unfold chanVec; split <;> rfl
@[simp] theorem chanVec_host (ch : Chan) (v : Nat) : (chanVec ch v).host = ch.host := by unfold chanVec; split <;> rfl
@[simp] theorem chanVec_pwr (ch : Chan) (v : Nat) : (chanVec ch v).pwr = ch.pwr := by unfold chanVec; split <;> rfl
@[simp] theorem chanVec_shadow (ch : Chan) (v : Nat) : (chanVec ch v).shadow = ch.shadow :=
  by unfold chanVec; split <;> rfl
@[simp] theorem chanVec_free (ch : Chan) (v : Nat) : (chanVec ch v).free = ch.free := by unfold chanVec; split <;> rfl

/-- The vectors that tell of the channel's own state are its own function's. -/
theorem chanVec_own (ch : Chan) {v : Nat} (h : v = 257 ∨ v = 258) :
    chanVec ch v = { ch with fn := sendVec ch.fn v } := by
  rcases h with rfl | rfl <;> simp [chanVec]

/-- A change of CSTATE. -/
theorem setCState_eq (ch : Chan) (s : CState) : setCState ch s = if ch.cstate = s then ch else
    { ch with cstate := s, mill := millStops s ch.mill, fn := sendVec ch.fn 258 } := by
  unfold setCState; rw [chanVec_own _ (.inr rfl)]

/-! ### CSTATE -/

@[simp] theorem setCState_ctl (ch : Chan) (s : CState) : (setCState ch s).ctl = ch.ctl :=
  by rw [setCState_eq]; split <;> rfl
@[simp] theorem setCState_ev (ch : Chan) (s : CState) : (setCState ch s).ev = ch.ev :=
  by rw [setCState_eq]; split <;> rfl
@[simp] theorem setCState_mem (ch : Chan) (s : CState) : (setCState ch s).mem = ch.mem :=
  by rw [setCState_eq]; split <;> rfl
@[simp] theorem setCState_arr (ch : Chan) (s : CState) : (setCState ch s).arr = ch.arr :=
  by rw [setCState_eq]; split <;> rfl
@[simp] theorem setCState_seq (ch : Chan) (s : CState) : (setCState ch s).seq = ch.seq :=
  by rw [setCState_eq]; split <;> rfl
@[simp] theorem setCState_trap (ch : Chan) (s : CState) : (setCState ch s).trap = ch.trap :=
  by rw [setCState_eq]; split <;> rfl
@[simp] theorem setCState_fmt (ch : Chan) (s : CState) : (setCState ch s).fmt = ch.fmt :=
  by rw [setCState_eq]; split <;> rfl
@[simp] theorem setCState_lau (ch : Chan) (s : CState) : (setCState ch s).lau = ch.lau :=
  by rw [setCState_eq]; split <;> rfl
@[simp] theorem setCState_rack (ch : Chan) (s : CState) : (setCState ch s).rack = ch.rack :=
  by rw [setCState_eq]; split <;> rfl
@[simp] theorem setCState_hbm (ch : Chan) (s : CState) : (setCState ch s).hbm = ch.hbm :=
  by rw [setCState_eq]; split <;> rfl
@[simp] theorem setCState_keg (ch : Chan) (s : CState) : (setCState ch s).keg = ch.keg :=
  by rw [setCState_eq]; split <;> rfl
@[simp] theorem setCState_host (ch : Chan) (s : CState) : (setCState ch s).host = ch.host :=
  by rw [setCState_eq]; split <;> rfl
@[simp] theorem setCState_pwr (ch : Chan) (s : CState) : (setCState ch s).pwr = ch.pwr :=
  by rw [setCState_eq]; split <;> rfl
@[simp] theorem setCState_err (ch : Chan) (s : CState) : (setCState ch s).err = ch.err :=
  by rw [setCState_eq]; split <;> rfl
@[simp] theorem setCState_shadow (ch : Chan) (s : CState) : (setCState ch s).shadow = ch.shadow :=
  by rw [setCState_eq]; split <;> rfl
@[simp] theorem setCState_free (ch : Chan) (s : CState) : (setCState ch s).free = ch.free :=
  by rw [setCState_eq]; split <;> rfl

@[simp] theorem setCState_cstate (ch : Chan) (s : CState) : (setCState ch s).cstate = s := by
  rw [setCState_eq]; split
  · next h => exact h
  · rfl

/-! ### An output that waits for its copy -/

@[simp] theorem pushCopy_cstate (ch : Chan) (x : PairOut) : (pushCopy ch x).cstate = ch.cstate := rfl
@[simp] theorem pushCopy_ctl (ch : Chan) (x : PairOut) : (pushCopy ch x).ctl = ch.ctl := rfl
@[simp] theorem pushCopy_ev (ch : Chan) (x : PairOut) : (pushCopy ch x).ev = ch.ev := rfl
@[simp] theorem pushCopy_mem (ch : Chan) (x : PairOut) : (pushCopy ch x).mem = ch.mem := rfl
@[simp] theorem pushCopy_arr (ch : Chan) (x : PairOut) : (pushCopy ch x).arr = ch.arr := rfl
@[simp] theorem pushCopy_seq (ch : Chan) (x : PairOut) : (pushCopy ch x).seq = ch.seq := rfl
@[simp] theorem pushCopy_trap (ch : Chan) (x : PairOut) : (pushCopy ch x).trap = ch.trap := rfl
@[simp] theorem pushCopy_fmt (ch : Chan) (x : PairOut) : (pushCopy ch x).fmt = ch.fmt := rfl
@[simp] theorem pushCopy_lau (ch : Chan) (x : PairOut) : (pushCopy ch x).lau = ch.lau := rfl
@[simp] theorem pushCopy_rack (ch : Chan) (x : PairOut) : (pushCopy ch x).rack = ch.rack := rfl
@[simp] theorem pushCopy_hbm (ch : Chan) (x : PairOut) : (pushCopy ch x).hbm = ch.hbm := rfl
@[simp] theorem pushCopy_mill (ch : Chan) (x : PairOut) : (pushCopy ch x).mill = ch.mill := rfl
@[simp] theorem pushCopy_keg (ch : Chan) (x : PairOut) : (pushCopy ch x).keg = ch.keg := rfl
@[simp] theorem pushCopy_fn (ch : Chan) (x : PairOut) : (pushCopy ch x).fn = ch.fn := rfl
@[simp] theorem pushCopy_host (ch : Chan) (x : PairOut) : (pushCopy ch x).host = ch.host := rfl
@[simp] theorem pushCopy_pwr (ch : Chan) (x : PairOut) : (pushCopy ch x).pwr = ch.pwr := rfl
@[simp] theorem pushCopy_shadow (ch : Chan) (x : PairOut) : (pushCopy ch x).shadow = ch.shadow := rfl
@[simp] theorem pushCopy_free (ch : Chan) (x : PairOut) : (pushCopy ch x).free = ch.free := rfl

/-! ### What the racking engine sends -/

@[simp] theorem hostSend_cstate (ch : Chan) (o : HostOut) : (hostSend ch o).cstate = ch.cstate :=
  by unfold hostSend; split <;> rfl
@[simp] theorem hostSend_ctl (ch : Chan) (o : HostOut) : (hostSend ch o).ctl = ch.ctl :=
  by unfold hostSend; split <;> rfl
@[simp] theorem hostSend_ev (ch : Chan) (o : HostOut) : (hostSend ch o).ev = ch.ev := by unfold hostSend; split <;> rfl
@[simp] theorem hostSend_mem (ch : Chan) (o : HostOut) : (hostSend ch o).mem = ch.mem :=
  by unfold hostSend; split <;> rfl
@[simp] theorem hostSend_arr (ch : Chan) (o : HostOut) : (hostSend ch o).arr = ch.arr :=
  by unfold hostSend; split <;> rfl
@[simp] theorem hostSend_seq (ch : Chan) (o : HostOut) : (hostSend ch o).seq = ch.seq :=
  by unfold hostSend; split <;> rfl
@[simp] theorem hostSend_trap (ch : Chan) (o : HostOut) : (hostSend ch o).trap = ch.trap :=
  by unfold hostSend; split <;> rfl
@[simp] theorem hostSend_fmt (ch : Chan) (o : HostOut) : (hostSend ch o).fmt = ch.fmt :=
  by unfold hostSend; split <;> rfl
@[simp] theorem hostSend_lau (ch : Chan) (o : HostOut) : (hostSend ch o).lau = ch.lau :=
  by unfold hostSend; split <;> rfl
@[simp] theorem hostSend_rack (ch : Chan) (o : HostOut) : (hostSend ch o).rack = ch.rack :=
  by unfold hostSend; split <;> rfl
@[simp] theorem hostSend_hbm (ch : Chan) (o : HostOut) : (hostSend ch o).hbm = ch.hbm :=
  by unfold hostSend; split <;> rfl
@[simp] theorem hostSend_mill (ch : Chan) (o : HostOut) : (hostSend ch o).mill = ch.mill :=
  by unfold hostSend; split <;> rfl
@[simp] theorem hostSend_keg (ch : Chan) (o : HostOut) : (hostSend ch o).keg = ch.keg :=
  by unfold hostSend; split <;> rfl
@[simp] theorem hostSend_host (ch : Chan) (o : HostOut) : (hostSend ch o).host = ch.host :=
  by unfold hostSend; split <;> rfl
@[simp] theorem hostSend_pwr (ch : Chan) (o : HostOut) : (hostSend ch o).pwr = ch.pwr :=
  by unfold hostSend; split <;> rfl
@[simp] theorem hostSend_shadow (ch : Chan) (o : HostOut) : (hostSend ch o).shadow = ch.shadow :=
  by unfold hostSend; split <;> rfl
@[simp] theorem hostSend_free (ch : Chan) (o : HostOut) : (hostSend ch o).free = ch.free :=
  by unfold hostSend; split <;> rfl

/-! ### A report -/

@[simp] theorem report_cstate (ch : Chan) (k : ErrClass) (code unit : Byte) (d : Word) :
    (report ch k code unit d).cstate = ch.cstate :=
  by cases k <;> rfl
@[simp] theorem report_ctl (ch : Chan) (k : ErrClass) (code unit : Byte) (d : Word) :
    (report ch k code unit d).ctl = ch.ctl :=
  by cases k <;> rfl
@[simp] theorem report_ev (ch : Chan) (k : ErrClass) (code unit : Byte) (d : Word) :
    (report ch k code unit d).ev = ch.ev :=
  by cases k <;> rfl
@[simp] theorem report_mem (ch : Chan) (k : ErrClass) (code unit : Byte) (d : Word) :
    (report ch k code unit d).mem = ch.mem :=
  by cases k <;> rfl
@[simp] theorem report_arr (ch : Chan) (k : ErrClass) (code unit : Byte) (d : Word) :
    (report ch k code unit d).arr = ch.arr :=
  by cases k <;> rfl
@[simp] theorem report_seq (ch : Chan) (k : ErrClass) (code unit : Byte) (d : Word) :
    (report ch k code unit d).seq = ch.seq :=
  by cases k <;> rfl
@[simp] theorem report_trap (ch : Chan) (k : ErrClass) (code unit : Byte) (d : Word) :
    (report ch k code unit d).trap = ch.trap :=
  by cases k <;> rfl
@[simp] theorem report_fmt (ch : Chan) (k : ErrClass) (code unit : Byte) (d : Word) :
    (report ch k code unit d).fmt = ch.fmt :=
  by cases k <;> rfl
@[simp] theorem report_lau (ch : Chan) (k : ErrClass) (code unit : Byte) (d : Word) :
    (report ch k code unit d).lau = ch.lau :=
  by cases k <;> rfl
@[simp] theorem report_rack (ch : Chan) (k : ErrClass) (code unit : Byte) (d : Word) :
    (report ch k code unit d).rack = ch.rack :=
  by cases k <;> rfl
@[simp] theorem report_hbm (ch : Chan) (k : ErrClass) (code unit : Byte) (d : Word) :
    (report ch k code unit d).hbm = ch.hbm :=
  by cases k <;> rfl
@[simp] theorem report_mill (ch : Chan) (k : ErrClass) (code unit : Byte) (d : Word) :
    (report ch k code unit d).mill = ch.mill :=
  by cases k <;> rfl
@[simp] theorem report_keg (ch : Chan) (k : ErrClass) (code unit : Byte) (d : Word) :
    (report ch k code unit d).keg = ch.keg :=
  by cases k <;> rfl
@[simp] theorem report_fn (ch : Chan) (k : ErrClass) (code unit : Byte) (d : Word) :
    (report ch k code unit d).fn = ch.fn :=
  by cases k <;> rfl
@[simp] theorem report_host (ch : Chan) (k : ErrClass) (code unit : Byte) (d : Word) :
    (report ch k code unit d).host = ch.host :=
  by cases k <;> rfl
@[simp] theorem report_pwr (ch : Chan) (k : ErrClass) (code unit : Byte) (d : Word) :
    (report ch k code unit d).pwr = ch.pwr :=
  by cases k <;> rfl
@[simp] theorem report_shadow (ch : Chan) (k : ErrClass) (code unit : Byte) (d : Word) :
    (report ch k code unit d).shadow = ch.shadow :=
  by cases k <;> rfl
@[simp] theorem report_free (ch : Chan) (k : ErrClass) (code unit : Byte) (d : Word) :
    (report ch k code unit d).free = ch.free :=
  by cases k <;> rfl

/-! ### An interrupt line -/

@[simp] theorem raiseLine_cstate (ch : Chan) (k : Nat) : (raiseLine ch k).cstate = ch.cstate := rfl
@[simp] theorem raiseLine_ctl (ch : Chan) (k : Nat) : (raiseLine ch k).ctl = ch.ctl := rfl
@[simp] theorem raiseLine_mem (ch : Chan) (k : Nat) : (raiseLine ch k).mem = ch.mem := rfl
@[simp] theorem raiseLine_arr (ch : Chan) (k : Nat) : (raiseLine ch k).arr = ch.arr := rfl
@[simp] theorem raiseLine_seq (ch : Chan) (k : Nat) : (raiseLine ch k).seq = ch.seq := rfl
@[simp] theorem raiseLine_trap (ch : Chan) (k : Nat) : (raiseLine ch k).trap = ch.trap := rfl
@[simp] theorem raiseLine_fmt (ch : Chan) (k : Nat) : (raiseLine ch k).fmt = ch.fmt := rfl
@[simp] theorem raiseLine_lau (ch : Chan) (k : Nat) : (raiseLine ch k).lau = ch.lau := rfl
@[simp] theorem raiseLine_rack (ch : Chan) (k : Nat) : (raiseLine ch k).rack = ch.rack := rfl
@[simp] theorem raiseLine_hbm (ch : Chan) (k : Nat) : (raiseLine ch k).hbm = ch.hbm := rfl
@[simp] theorem raiseLine_mill (ch : Chan) (k : Nat) : (raiseLine ch k).mill = ch.mill := rfl
@[simp] theorem raiseLine_keg (ch : Chan) (k : Nat) : (raiseLine ch k).keg = ch.keg := rfl
@[simp] theorem raiseLine_fn (ch : Chan) (k : Nat) : (raiseLine ch k).fn = ch.fn := rfl
@[simp] theorem raiseLine_host (ch : Chan) (k : Nat) : (raiseLine ch k).host = ch.host := rfl
@[simp] theorem raiseLine_pwr (ch : Chan) (k : Nat) : (raiseLine ch k).pwr = ch.pwr := rfl
@[simp] theorem raiseLine_err (ch : Chan) (k : Nat) : (raiseLine ch k).err = ch.err := rfl
@[simp] theorem raiseLine_shadow (ch : Chan) (k : Nat) : (raiseLine ch k).shadow = ch.shadow := rfl
@[simp] theorem raiseLine_free (ch : Chan) (k : Nat) : (raiseLine ch k).free = ch.free := rfl

/-! ### The ARRAY trap -/

@[simp] theorem raiseArray_cstate (ch : Chan) (k : Byte) : (raiseArray ch k).cstate = ch.cstate := rfl
@[simp] theorem raiseArray_ctl (ch : Chan) (k : Byte) : (raiseArray ch k).ctl = ch.ctl := rfl
@[simp] theorem raiseArray_mem (ch : Chan) (k : Byte) : (raiseArray ch k).mem = ch.mem := rfl
@[simp] theorem raiseArray_arr (ch : Chan) (k : Byte) : (raiseArray ch k).arr = ch.arr := rfl
@[simp] theorem raiseArray_seq (ch : Chan) (k : Byte) : (raiseArray ch k).seq = ch.seq := rfl
@[simp] theorem raiseArray_trap (ch : Chan) (k : Byte) : (raiseArray ch k).trap = ch.trap := rfl
@[simp] theorem raiseArray_fmt (ch : Chan) (k : Byte) : (raiseArray ch k).fmt = ch.fmt := rfl
@[simp] theorem raiseArray_lau (ch : Chan) (k : Byte) : (raiseArray ch k).lau = ch.lau := rfl
@[simp] theorem raiseArray_rack (ch : Chan) (k : Byte) : (raiseArray ch k).rack = ch.rack := rfl
@[simp] theorem raiseArray_hbm (ch : Chan) (k : Byte) : (raiseArray ch k).hbm = ch.hbm := rfl
@[simp] theorem raiseArray_mill (ch : Chan) (k : Byte) : (raiseArray ch k).mill = ch.mill := rfl
@[simp] theorem raiseArray_keg (ch : Chan) (k : Byte) : (raiseArray ch k).keg = ch.keg := rfl
@[simp] theorem raiseArray_fn (ch : Chan) (k : Byte) : (raiseArray ch k).fn = ch.fn := rfl
@[simp] theorem raiseArray_host (ch : Chan) (k : Byte) : (raiseArray ch k).host = ch.host := rfl
@[simp] theorem raiseArray_pwr (ch : Chan) (k : Byte) : (raiseArray ch k).pwr = ch.pwr := rfl
@[simp] theorem raiseArray_err (ch : Chan) (k : Byte) : (raiseArray ch k).err = ch.err := rfl
@[simp] theorem raiseArray_shadow (ch : Chan) (k : Byte) : (raiseArray ch k).shadow = ch.shadow := rfl
@[simp] theorem raiseArray_free (ch : Chan) (k : Byte) : (raiseArray ch k).free = ch.free := rfl

/-! ### A stored DMEM word -/

@[simp] theorem dmemWrite_cstate (ch : Chan) (a : Nat) (x : Word) : (dmemWrite ch a x).cstate = ch.cstate := rfl
@[simp] theorem dmemWrite_ctl (ch : Chan) (a : Nat) (x : Word) : (dmemWrite ch a x).ctl = ch.ctl := rfl
@[simp] theorem dmemWrite_ev (ch : Chan) (a : Nat) (x : Word) : (dmemWrite ch a x).ev = ch.ev := rfl
@[simp] theorem dmemWrite_arr (ch : Chan) (a : Nat) (x : Word) : (dmemWrite ch a x).arr = ch.arr := rfl
@[simp] theorem dmemWrite_seq (ch : Chan) (a : Nat) (x : Word) : (dmemWrite ch a x).seq = ch.seq := rfl
@[simp] theorem dmemWrite_trap (ch : Chan) (a : Nat) (x : Word) : (dmemWrite ch a x).trap = ch.trap := rfl
@[simp] theorem dmemWrite_fmt (ch : Chan) (a : Nat) (x : Word) : (dmemWrite ch a x).fmt = ch.fmt := rfl
@[simp] theorem dmemWrite_lau (ch : Chan) (a : Nat) (x : Word) : (dmemWrite ch a x).lau = ch.lau := rfl
@[simp] theorem dmemWrite_rack (ch : Chan) (a : Nat) (x : Word) : (dmemWrite ch a x).rack = ch.rack := rfl
@[simp] theorem dmemWrite_hbm (ch : Chan) (a : Nat) (x : Word) : (dmemWrite ch a x).hbm = ch.hbm := rfl
@[simp] theorem dmemWrite_mill (ch : Chan) (a : Nat) (x : Word) : (dmemWrite ch a x).mill = ch.mill := rfl
@[simp] theorem dmemWrite_keg (ch : Chan) (a : Nat) (x : Word) : (dmemWrite ch a x).keg = ch.keg := rfl
@[simp] theorem dmemWrite_fn (ch : Chan) (a : Nat) (x : Word) : (dmemWrite ch a x).fn = ch.fn := rfl
@[simp] theorem dmemWrite_host (ch : Chan) (a : Nat) (x : Word) : (dmemWrite ch a x).host = ch.host := rfl
@[simp] theorem dmemWrite_pwr (ch : Chan) (a : Nat) (x : Word) : (dmemWrite ch a x).pwr = ch.pwr := rfl
@[simp] theorem dmemWrite_err (ch : Chan) (a : Nat) (x : Word) : (dmemWrite ch a x).err = ch.err := rfl
@[simp] theorem dmemWrite_shadow (ch : Chan) (a : Nat) (x : Word) : (dmemWrite ch a x).shadow = ch.shadow := rfl
@[simp] theorem dmemWrite_free (ch : Chan) (a : Nat) (x : Word) : (dmemWrite ch a x).free = ch.free := rfl

/-! ### A written plane -/

@[simp] theorem setPlane_cstate (ch : Chan) (p : Nat) (x : Sheet) : (setPlane ch p x).cstate = ch.cstate := rfl
@[simp] theorem setPlane_ctl (ch : Chan) (p : Nat) (x : Sheet) : (setPlane ch p x).ctl = ch.ctl := rfl
@[simp] theorem setPlane_ev (ch : Chan) (p : Nat) (x : Sheet) : (setPlane ch p x).ev = ch.ev := rfl
@[simp] theorem setPlane_mem (ch : Chan) (p : Nat) (x : Sheet) : (setPlane ch p x).mem = ch.mem := rfl
@[simp] theorem setPlane_seq (ch : Chan) (p : Nat) (x : Sheet) : (setPlane ch p x).seq = ch.seq := rfl
@[simp] theorem setPlane_trap (ch : Chan) (p : Nat) (x : Sheet) : (setPlane ch p x).trap = ch.trap := rfl
@[simp] theorem setPlane_fmt (ch : Chan) (p : Nat) (x : Sheet) : (setPlane ch p x).fmt = ch.fmt := rfl
@[simp] theorem setPlane_lau (ch : Chan) (p : Nat) (x : Sheet) : (setPlane ch p x).lau = ch.lau := rfl
@[simp] theorem setPlane_rack (ch : Chan) (p : Nat) (x : Sheet) : (setPlane ch p x).rack = ch.rack := rfl
@[simp] theorem setPlane_hbm (ch : Chan) (p : Nat) (x : Sheet) : (setPlane ch p x).hbm = ch.hbm := rfl
@[simp] theorem setPlane_mill (ch : Chan) (p : Nat) (x : Sheet) : (setPlane ch p x).mill = ch.mill := rfl
@[simp] theorem setPlane_keg (ch : Chan) (p : Nat) (x : Sheet) : (setPlane ch p x).keg = ch.keg := rfl
@[simp] theorem setPlane_fn (ch : Chan) (p : Nat) (x : Sheet) : (setPlane ch p x).fn = ch.fn := rfl
@[simp] theorem setPlane_host (ch : Chan) (p : Nat) (x : Sheet) : (setPlane ch p x).host = ch.host := rfl
@[simp] theorem setPlane_pwr (ch : Chan) (p : Nat) (x : Sheet) : (setPlane ch p x).pwr = ch.pwr := rfl
@[simp] theorem setPlane_err (ch : Chan) (p : Nat) (x : Sheet) : (setPlane ch p x).err = ch.err := rfl
@[simp] theorem setPlane_shadow (ch : Chan) (p : Nat) (x : Sheet) : (setPlane ch p x).shadow = ch.shadow := rfl
@[simp] theorem setPlane_free (ch : Chan) (p : Nat) (x : Sheet) : (setPlane ch p x).free = ch.free := rfl

/-! ### A loop level -/

@[simp] theorem setLevel_pc (t : Ctl) (k : Nat) (l : Level) : (setLevel t k l).pc = t.pc := rfl
@[simp] theorem setLevel_ds (t : Ctl) (k : Nat) (l : Level) : (setLevel t k l).ds = t.ds := rfl
@[simp] theorem setLevel_rs (t : Ctl) (k : Nat) (l : Level) : (setLevel t k l).rs = t.rs := rfl
@[simp] theorem setLevel_dsp (t : Ctl) (k : Nat) (l : Level) : (setLevel t k l).dsp = t.dsp := rfl
@[simp] theorem setLevel_dspBase (t : Ctl) (k : Nat) (l : Level) : (setLevel t k l).dspBase = t.dspBase := rfl
@[simp] theorem setLevel_dspLimit (t : Ctl) (k : Nat) (l : Level) : (setLevel t k l).dspLimit = t.dspLimit := rfl
@[simp] theorem setLevel_rsp (t : Ctl) (k : Nat) (l : Level) : (setLevel t k l).rsp = t.rsp := rfl
@[simp] theorem setLevel_rspBase (t : Ctl) (k : Nat) (l : Level) : (setLevel t k l).rspBase = t.rspBase := rfl
@[simp] theorem setLevel_rspLimit (t : Ctl) (k : Nat) (l : Level) : (setLevel t k l).rspLimit = t.rspLimit := rfl
@[simp] theorem setLevel_a (t : Ctl) (k : Nat) (l : Level) : (setLevel t k l).a = t.a := rfl
@[simp] theorem setLevel_n (t : Ctl) (k : Nat) (l : Level) : (setLevel t k l).n = t.n := rfl
@[simp] theorem setLevel_z (t : Ctl) (k : Nat) (l : Level) : (setLevel t k l).z = t.z := rfl
@[simp] theorem setLevel_c (t : Ctl) (k : Nat) (l : Level) : (setLevel t k l).c = t.c := rfl
@[simp] theorem setLevel_v (t : Ctl) (k : Nat) (l : Level) : (setLevel t k l).v = t.v := rfl
@[simp] theorem setLevel_vff (t : Ctl) (k : Nat) (l : Level) : (setLevel t k l).vff = t.vff := rfl
@[simp] theorem setLevel_ie (t : Ctl) (k : Nat) (l : Level) : (setLevel t k l).ie = t.ie := rfl
@[simp] theorem setLevel_inmchk (t : Ctl) (k : Nat) (l : Level) : (setLevel t k l).inmchk = t.inmchk := rfl
@[simp] theorem setLevel_repact (t : Ctl) (k : Nat) (l : Level) : (setLevel t k l).repact = t.repact := rfl
@[simp] theorem setLevel_ypend (t : Ctl) (k : Nat) (l : Level) : (setLevel t k l).ypend = t.ypend := rfl
@[simp] theorem setLevel_depth (t : Ctl) (k : Nat) (l : Level) : (setLevel t k l).depth = t.depth := rfl
@[simp] theorem setLevel_repc (t : Ctl) (k : Nat) (l : Level) : (setLevel t k l).repc = t.repc := rfl
@[simp] theorem setLevel_vl (t : Ctl) (k : Nat) (l : Level) : (setLevel t k l).vl = t.vl := rfl
@[simp] theorem setLevel_vs (t : Ctl) (k : Nat) (l : Level) : (setLevel t k l).vs = t.vs := rfl
@[simp] theorem setLevel_fpctl (t : Ctl) (k : Nat) (l : Level) : (setLevel t k l).fpctl = t.fpctl := rfl

/-! ### FLAGS restored -/

@[simp] theorem setFlagsWord_pc (t : Ctl) (w : Word) : (setFlagsWord t w).pc = t.pc := rfl
@[simp] theorem setFlagsWord_ds (t : Ctl) (w : Word) : (setFlagsWord t w).ds = t.ds := rfl
@[simp] theorem setFlagsWord_rs (t : Ctl) (w : Word) : (setFlagsWord t w).rs = t.rs := rfl
@[simp] theorem setFlagsWord_dsp (t : Ctl) (w : Word) : (setFlagsWord t w).dsp = t.dsp := rfl
@[simp] theorem setFlagsWord_dspBase (t : Ctl) (w : Word) : (setFlagsWord t w).dspBase = t.dspBase := rfl
@[simp] theorem setFlagsWord_dspLimit (t : Ctl) (w : Word) : (setFlagsWord t w).dspLimit = t.dspLimit := rfl
@[simp] theorem setFlagsWord_rsp (t : Ctl) (w : Word) : (setFlagsWord t w).rsp = t.rsp := rfl
@[simp] theorem setFlagsWord_rspBase (t : Ctl) (w : Word) : (setFlagsWord t w).rspBase = t.rspBase := rfl
@[simp] theorem setFlagsWord_rspLimit (t : Ctl) (w : Word) : (setFlagsWord t w).rspLimit = t.rspLimit := rfl
@[simp] theorem setFlagsWord_a (t : Ctl) (w : Word) : (setFlagsWord t w).a = t.a := rfl
@[simp] theorem setFlagsWord_ie (t : Ctl) (w : Word) : (setFlagsWord t w).ie = t.ie := rfl
@[simp] theorem setFlagsWord_inmchk (t : Ctl) (w : Word) : (setFlagsWord t w).inmchk = t.inmchk := rfl
@[simp] theorem setFlagsWord_repact (t : Ctl) (w : Word) : (setFlagsWord t w).repact = t.repact := rfl
@[simp] theorem setFlagsWord_ypend (t : Ctl) (w : Word) : (setFlagsWord t w).ypend = t.ypend := rfl
@[simp] theorem setFlagsWord_depth (t : Ctl) (w : Word) : (setFlagsWord t w).depth = t.depth := rfl
@[simp] theorem setFlagsWord_levels (t : Ctl) (w : Word) : (setFlagsWord t w).levels = t.levels := rfl
@[simp] theorem setFlagsWord_repc (t : Ctl) (w : Word) : (setFlagsWord t w).repc = t.repc := rfl
@[simp] theorem setFlagsWord_vl (t : Ctl) (w : Word) : (setFlagsWord t w).vl = t.vl := rfl
@[simp] theorem setFlagsWord_vs (t : Ctl) (w : Word) : (setFlagsWord t w).vs = t.vs := rfl
@[simp] theorem setFlagsWord_fpctl (t : Ctl) (w : Word) : (setFlagsWord t w).fpctl = t.fpctl := rfl

/-! ### STATUS restored -/

@[simp] theorem setStatusWord_pc (t : Ctl) (w : Word) : (setStatusWord t w).pc = t.pc := rfl
@[simp] theorem setStatusWord_ds (t : Ctl) (w : Word) : (setStatusWord t w).ds = t.ds := rfl
@[simp] theorem setStatusWord_rs (t : Ctl) (w : Word) : (setStatusWord t w).rs = t.rs := rfl
@[simp] theorem setStatusWord_dsp (t : Ctl) (w : Word) : (setStatusWord t w).dsp = t.dsp := rfl
@[simp] theorem setStatusWord_dspBase (t : Ctl) (w : Word) : (setStatusWord t w).dspBase = t.dspBase := rfl
@[simp] theorem setStatusWord_dspLimit (t : Ctl) (w : Word) : (setStatusWord t w).dspLimit = t.dspLimit := rfl
@[simp] theorem setStatusWord_rsp (t : Ctl) (w : Word) : (setStatusWord t w).rsp = t.rsp := rfl
@[simp] theorem setStatusWord_rspBase (t : Ctl) (w : Word) : (setStatusWord t w).rspBase = t.rspBase := rfl
@[simp] theorem setStatusWord_rspLimit (t : Ctl) (w : Word) : (setStatusWord t w).rspLimit = t.rspLimit := rfl
@[simp] theorem setStatusWord_a (t : Ctl) (w : Word) : (setStatusWord t w).a = t.a := rfl
@[simp] theorem setStatusWord_ypend (t : Ctl) (w : Word) : (setStatusWord t w).ypend = t.ypend := rfl
@[simp] theorem setStatusWord_depth (t : Ctl) (w : Word) : (setStatusWord t w).depth = t.depth := rfl
@[simp] theorem setStatusWord_levels (t : Ctl) (w : Word) : (setStatusWord t w).levels = t.levels := rfl
@[simp] theorem setStatusWord_repc (t : Ctl) (w : Word) : (setStatusWord t w).repc = t.repc := rfl
@[simp] theorem setStatusWord_vl (t : Ctl) (w : Word) : (setStatusWord t w).vl = t.vl := rfl
@[simp] theorem setStatusWord_vs (t : Ctl) (w : Word) : (setStatusWord t w).vs = t.vs := rfl
@[simp] theorem setStatusWord_fpctl (t : Ctl) (w : Word) : (setStatusWord t w).fpctl = t.fpctl := rfl

/-- What a fence leaves: CSTATE is FENCED, and only CSTATE, the Mill, the errors and the messages of the
function change. -/
theorem fenceChan_spec (ch : Chan) (code unit : Byte) (d : Word) :
    ∃ f e m, fenceChan ch code unit d = { ch with cstate := .fenced, fn := f, err := e, mill := m } := by
  unfold fenceChan
  split
  · next h => exact ⟨ch.fn, (report ch .ucc code unit d).err, ch.mill, by rw [← h]; rfl⟩
  · next h =>
    simp only [setCState_eq, if_neg h]
    exact ⟨_, _, _, rfl⟩

/-- What a machine check leaves: a pending cause, or a fenced channel. -/
theorem raiseMchk_spec (ch : Chan) (k : Nat) :
    raiseMchk ch k = fenceChan ch 0x16 0 0 ∨ raiseMchk ch k = ch ∨
      raiseMchk ch k = { ch with ev := { ch.ev with mchk := ch.ev.mchk ++ [k] } } := by
  unfold raiseMchk
  split
  · exact .inl rfl
  · split
    · exact .inr (.inl rfl)
    · exact .inr (.inr rfl)

end Sys2Proof.Machine
end

