-- ==== Sys2Proof/Laws/Controller.lean ====
section
/-! SUPPORT. What each shared operation of the controller can do: checked reads, the two stacks, the loop nest, the step
past an instruction, trap entry, and one instruction. Proofs cite these and do not unfold the operations. -/

namespace Sys2Proof.Machine

/-! ### Checked reads (R240) -/

/-- A checked DMEM read changes marks, counters and reports only. -/
theorem dmemCheck_spec (ch : Chan) (w : Nat) :
    ∃ m e, dmemCheck ch w = { ch with mem := m, err := e } ∧ m.dmem = ch.mem.dmem ∧ m.imem = ch.mem.imem := by
  unfold dmemCheck
  split
  · exact ⟨_, _, rfl, rfl, rfl⟩
  · exact ⟨ch.mem, ch.err, rfl, rfl, rfl⟩

/-- A checked IMEM read changes marks, counters and reports only. -/
theorem imemCheck_spec (ch : Chan) (w : Nat) :
    ∃ m e, imemCheck ch w = { ch with mem := m, err := e } ∧ m.dmem = ch.mem.dmem ∧ m.imem = ch.mem.imem := by
  unfold imemCheck
  split
  · exact ⟨_, _, rfl, rfl, rfl⟩
  · exact ⟨ch.mem, ch.err, rfl, rfl, rfl⟩

/-- A DMEM word that is read is the word in memory, and none that is read is uncorrectable. -/
theorem dmemRead_ok {ch r : Chan} {a : Nat} {w : Word} (h : dmemRead ch a = .ok (w, r)) :
    w = memWord ch.mem.dmem (4 * (a / 4)) ∧ r = dmemCheck ch (a / 4) ∧ markUe ch.mem.dmarks (a / 4) = false := by
  unfold dmemRead at h
  split at h
  · cases h
  · next hm => simp only [Except.ok.injEq, Prod.mk.injEq] at h; exact ⟨h.1.symm, h.2.symm, by simpa using hm⟩

/-- A whole-word store changes DMEM and its marks only, and keeps the canonical form. -/
theorem dmemWrite_spec (ch : Chan) (a : Nat) (x : Word) :
    ∃ m, dmemWrite ch a x = { ch with mem := m } ∧ m.imem = ch.mem.imem ∧
      (Memory.wf ch.mem.dmem = true → Memory.wf m.dmem = true) := ⟨_, rfl, rfl, fun h => memSetWord_wf h⟩

/-! ### The stacks (R172, R173) -/

/-- Cells read back from DMEM: as many as asked for, and only checks happen to the channel. -/
theorem fillCells_ok {n : Nat} {a : Nat} {ch r : Chan} {ws : List Word} (h : fillCells n a ch = .ok (ws, r)) :
    ws.length = n ∧ ∃ m e, r = { ch with mem := m, err := e } ∧ m.dmem = ch.mem.dmem ∧ m.imem = ch.mem.imem := by
  induction n generalizing a ch ws with
  | zero => cases h; exact ⟨rfl, r.mem, r.err, rfl, rfl, rfl⟩
  | succ n ih =>
    simp only [fillCells] at h
    split at h
    · cases h
    · next w q hq =>
      split at h
      · cases h
      · next vs p hp =>
        cases h
        obtain ⟨hl, m, e, rfl, hd, hi⟩ := ih hp
        obtain ⟨-, hc, -⟩ := dmemRead_ok hq
        obtain ⟨m', e', hc', hd', hi'⟩ := dmemCheck_spec ch ((a - 4) / 4)
        rw [hc, hc'] at hd hi ⊢
        exact ⟨by simp [hl], m, e, rfl, hd.trans hd', hi.trans hi'⟩

/-- The data stack with at least `k` cells in core: the cells that were there stay on top, and nothing else of the
controller changes but DSP. -/
theorem fillData_ok {ch r : Chan} {k : Nat} (h : fillData ch k = .ok r) :
    ∃ below dsp m e, r = { ch with ctl := { ch.ctl with ds := ch.ctl.ds ++ below, dsp := dsp }, mem := m, err := e } ∧
      (ch.ctl.ds ++ below).length = max k ch.ctl.ds.length ∧ m.dmem = ch.mem.dmem ∧ m.imem = ch.mem.imem := by
  unfold fillData at h
  simp only at h
  split at h
  · next hk => cases h; exact ⟨[], ch.ctl.dsp, ch.mem, ch.err, by simp, by simp; omega, rfl, rfl⟩
  · next hk =>
    split at h
    · cases h
    · split at h
      · cases h
      · next ws q hq =>
        cases h
        obtain ⟨hl, m, e, rfl, hd, hi⟩ := fillCells_ok hq
        exact ⟨ws, _, m, e, rfl, by rw [List.length_append, hl]; omega, hd, hi⟩

/-- No cell is read back when enough are in core. -/
theorem fillData_of_le {ch : Chan} {k : Nat} (h : k ≤ ch.ctl.ds.length) : fillData ch k = .ok ch := by
  simp [fillData, Nat.sub_eq_zero_of_le h]

/-- Cells spilled to DMEM change DMEM and its marks only. -/
theorem spillCells_spec (ws : List Word) (a : Nat) (ch : Chan) :
    ∃ m, spillCells ws a ch = { ch with mem := m } ∧ m.imem = ch.mem.imem ∧
      (Memory.wf ch.mem.dmem = true → Memory.wf m.dmem = true) := by
  induction ws generalizing a ch with
  | nil => exact ⟨ch.mem, rfl, rfl, id⟩
  | cons w t ih =>
    obtain ⟨m, h, hi, hw⟩ := ih (a + 4) (dmemWrite ch a w)
    exact ⟨m, h.trans rfl, hi, fun h => hw (memSetWord_wf h)⟩

/-- A push that succeeds leaves at most 8 cells in core, the pushed ones on top, and changes DSP and DMEM only. -/
theorem pushData_ok {ch r : Chan} {xs : List Word} (h : pushData ch xs = .ok r) :
    ∃ dsp m, r = { ch with ctl := { ch.ctl with ds := (xs.reverse ++ ch.ctl.ds).take 8, dsp := dsp }, mem := m } ∧
      m.imem = ch.mem.imem ∧ (Memory.wf ch.mem.dmem = true → Memory.wf m.dmem = true) := by
  unfold pushData at h
  simp only at h
  split at h
  · next hk =>
    cases h
    exact ⟨ch.ctl.dsp, ch.mem, by rw [List.take_of_length_le (by omega)], rfl, id⟩
  · split at h
    · cases h
    · cases h
      obtain ⟨m, hs, hi, hw⟩ := spillCells_spec ((xs.reverse ++ ch.ctl.ds).drop 8).reverse ch.ctl.dsp.toNat ch
      rw [hs]
      exact ⟨_, m, rfl, hi, hw⟩

/-- A push that fits in core only puts its cells on top. -/
theorem pushData_of_le {ch : Chan} {xs : List Word} (h : xs.length + ch.ctl.ds.length ≤ 8) :
    pushData ch xs = .ok { ch with ctl := { ch.ctl with ds := xs.reverse ++ ch.ctl.ds } } := by
  simp [pushData, Nat.sub_eq_zero_of_le h]

/-- As `pushData_ok`, for the return stack and 16 cells. -/
theorem pushReturnTo_ok {limit : Nat} {ch r : Chan} {xs : List Word} (h : pushReturnTo limit ch xs = .ok r) :
    ∃ rsp m, r = { ch with ctl := { ch.ctl with rs := (xs.reverse ++ ch.ctl.rs).take 16, rsp := rsp }, mem := m } ∧
      m.imem = ch.mem.imem ∧ (Memory.wf ch.mem.dmem = true → Memory.wf m.dmem = true) := by
  unfold pushReturnTo at h
  simp only at h
  split at h
  · next hk =>
    cases h
    exact ⟨ch.ctl.rsp, ch.mem, by rw [List.take_of_length_le (by omega)], rfl, id⟩
  · split at h
    · cases h
    · cases h
      obtain ⟨m, hs, hi, hw⟩ := spillCells_spec ((xs.reverse ++ ch.ctl.rs).drop 16).reverse ch.ctl.rsp.toNat ch
      rw [hs]
      exact ⟨_, m, rfl, hi, hw⟩

/-- A push that fits in core only puts its cells on top. -/
theorem pushReturnTo_of_le {limit : Nat} {ch : Chan} {xs : List Word} (h : xs.length + ch.ctl.rs.length ≤ 16) :
    pushReturnTo limit ch xs = .ok { ch with ctl := { ch.ctl with rs := xs.reverse ++ ch.ctl.rs } } := by
  simp [pushReturnTo, Nat.sub_eq_zero_of_le h]

/-- As `fillData_ok`, for the return stack. -/
theorem fillReturn_ok {ch r : Chan} {k : Nat} (h : fillReturn ch k = .ok r) :
    ∃ below rsp m e, r = { ch with ctl := { ch.ctl with rs := ch.ctl.rs ++ below, rsp := rsp }, mem := m, err := e } ∧
      (ch.ctl.rs ++ below).length = max k ch.ctl.rs.length ∧ m.dmem = ch.mem.dmem ∧ m.imem = ch.mem.imem := by
  unfold fillReturn at h
  simp only at h
  split at h
  · next hk => cases h; exact ⟨[], ch.ctl.rsp, ch.mem, ch.err, by simp, by simp; omega, rfl, rfl⟩
  · next hk =>
    split at h
    · cases h
    · split at h
      · cases h
      · next ws q hq =>
        cases h
        obtain ⟨hl, m, e, rfl, hd, hi⟩ := fillCells_ok hq
        exact ⟨ws, _, m, e, rfl, by rw [List.length_append, hl]; omega, hd, hi⟩

/-- Return cells that are popped: as many as asked for, top first, and the in-core cells never grow. -/
theorem popReturn_ok {ch r : Chan} {k : Nat} {ws : List Word} (h : popReturn ch k = .ok (ws, r)) :
    ws.length = k ∧ ∃ rs rsp m e, r = { ch with ctl := { ch.ctl with rs := rs, rsp := rsp }, mem := m, err := e } ∧
      rs.length ≤ ch.ctl.rs.length ∧ m.dmem = ch.mem.dmem ∧ m.imem = ch.mem.imem := by
  unfold popReturn at h
  split at h
  · cases h
  · next q hq =>
    cases h
    obtain ⟨below, rsp, m, e, rfl, hl, hd, hi⟩ := fillReturn_ok hq
    exact ⟨by rw [List.length_take, hl]; omega, _, rsp, m, e, rfl, by rw [List.length_drop, hl]; omega, hd, hi⟩

/-- Naming the channel in which a trap is raised changes no answer. -/
@[simp] theorem trapIn_ok {α : Type} {ch : Chan} {r : Except TrapInfo α} {x : α} : trapIn ch r = .ok x ↔ r = .ok x := by
  cases r <;> simp [trapIn]

/-- An instruction on the data stack completes through its three parts: its inputs in core, its work, its results. -/
theorem stackOp_ok {k : Nat} {f : List Word → Chan → Except TrapInfo (List Word × Chan)} {ch r : Chan}
    (h : stackOp k f ch = .ok r) :
    ∃ u rs v, fillData ch k = .ok u ∧ f (u.ctl.ds.take k) { u with ctl := { u.ctl with ds := u.ctl.ds.drop k } } = .ok (rs, v)
      ∧ pushData v rs = .ok r := by
  unfold stackOp at h
  split at h
  · cases h
  · next u hu =>
    simp only [takeData] at h
    split at h
    · cases h
    · next rs v hv => exact ⟨u, rs, v, hu, trapIn_ok.1 hv, trapIn_ok.1 h⟩

/-! ### The loop nest and the step past an instruction (R183, R185) -/

/-- Loops change the PC, the nest and nothing else, and never open a level. -/
theorem fireLoops_spec (n : Nat) (t : Ctl) (a : Word) :
    ∃ pc k l, fireLoops n t a = { t with pc := pc, depth := k, levels := l } ∧ k ≤ t.depth := by
  induction n generalizing t with
  | zero => exact ⟨a, t.depth, t.levels, rfl, Nat.le_refl _⟩
  | succ n ih =>
    simp only [fireLoops]
    split
    · exact ⟨a, t.depth, t.levels, rfl, Nat.le_refl _⟩
    · split
      · exact ⟨_, t.depth, _, rfl, Nat.le_refl _⟩
      · obtain ⟨pc, k, l, h, hk⟩ := ih { t with depth := t.depth - 1 }
        exact ⟨pc, k, l, h, Nat.le_trans hk (Nat.sub_le _ _)⟩

/-- The step past an instruction changes the PC, the nest and the REP registers only. -/
theorem advance_spec (ch : Chan) (len : Nat) :
    ∃ pc k l n b, advance ch len =
      { ch with ctl := { ch.ctl with pc := pc, depth := k, levels := l, repc := n, repact := b } } ∧ k ≤ ch.ctl.depth := by
  unfold advance arrive
  split
  · split
    · obtain ⟨pc, k, l, h, hk⟩ := fireLoops_spec 4 { ch.ctl with repc := 0, repact := false } (nextPc ch len)
      simp only [nextPc] at h ⊢
      rw [h]
      exact ⟨pc, k, l, 0, false, rfl, hk⟩
    · exact ⟨ch.ctl.pc, ch.ctl.depth, ch.ctl.levels, _, ch.ctl.repact, rfl, Nat.le_refl _⟩
  · obtain ⟨pc, k, l, h, hk⟩ := fireLoops_spec 4 ch.ctl (nextPc ch len)
    rw [h]
    exact ⟨pc, k, l, ch.ctl.repc, ch.ctl.repact, rfl, hk⟩

/-- The end of a single step changes the pending events only. -/
theorem afterInstr_spec (ch : Chan) : ∃ e, afterInstr ch = { ch with ev := e } := by
  unfold afterInstr
  split
  · exact ⟨_, rfl⟩
  · exact ⟨ch.ev, rfl⟩

/-- Without a debug step the end of an instruction changes nothing. -/
theorem afterInstr_of_not {ch : Chan} (h : ch.ev.stepArmed = false) : afterInstr ch = ch := by simp [afterInstr, h]

/-! ### Traps (R194, R196) -/

/-- Trap entry: what it writes when its frame fits. -/
theorem tryEntry_ok {ch r : Chan} {i : TrapInfo} {b : Bool} {ret : Word} (h : tryEntry ch i b ret = .ok r) :
    ∃ q, pushReturnTo (ch.ctl.rspLimit.toNat + 256) ch (trapFrame ch.ctl ret) = .ok q ∧
      r.ctl = { q.ctl with
        depth := 0, repc := 0, ie := false, repact := false
        inmchk := q.ctl.inmchk || decide (i.vec = 10), pc := BitVec.ofNat 32 (4 * i.vec) } ∧
      r.mem = q.mem ∧ r.ev.trapCause = trapCauseWord i.vec i.cause b ∧ r.ev.trapAddr = i.addr ∧ r.ev.wait = none ∧
      r.cstate = q.cstate ∧ r.fn = q.fn ∧ r.err = q.err := by
  unfold tryEntry at h
  split at h
  · cases h
  · next q hq => cases h; exact ⟨q, hq, rfl, rfl, rfl, rfl, rfl, rfl, rfl, rfl⟩

/-- Taking a trap enters a handler, with its own vector or as a machine check, or fences the channel. -/
theorem takeTrap_cases (ch : Chan) (i : TrapInfo) (b : Bool) (ret : Word) :
    takeTrap ch i b ret = fenceChan ch 0x16 0 ret ∨ tryEntry ch i b ret = .ok (takeTrap ch i b ret) ∨
      tryEntry ch { vec := 10, cause := 4, addr := 0 } true ret = .ok (takeTrap ch i b ret) := by
  unfold takeTrap
  split
  · exact .inl rfl
  · split
    · next r hr => exact .inr (.inl hr)
    · split
      · exact .inl rfl
      · split
        · next r hr => exact .inr (.inr hr)
        · exact .inl rfl

/-- Trap entry keeps the counts of the controller in bounds. -/
theorem tryEntry_bounded {ch r : Chan} {i : TrapInfo} {b : Bool} {ret : Word} (h : tryEntry ch i b ret = .ok r)
    (hb : ch.ctl.bounded) : r.ctl.bounded := by
  obtain ⟨q, hq, hc, -⟩ := tryEntry_ok h
  obtain ⟨rsp, m, rfl, -⟩ := pushReturnTo_ok hq
  obtain ⟨h1, -, -, h4, h5⟩ := hb
  rw [hc]
  exact ⟨h1, by simp only [List.length_take]; omega, Nat.zero_le _, h4, h5⟩

/-- Taking a trap keeps the counts of the controller in bounds. -/
theorem takeTrap_bounded {ch : Chan} (i : TrapInfo) (b : Bool) (ret : Word) (hb : ch.ctl.bounded) :
    (takeTrap ch i b ret).ctl.bounded := by
  rcases takeTrap_cases ch i b ret with h | h | h
  · obtain ⟨f, e, m, he⟩ := fenceChan_spec ch 0x16 0 ret
    rw [h, he]; exact hb
  · exact tryEntry_bounded h hb
  · exact tryEntry_bounded h hb

/-- A synchronous trap keeps the counts of the controller in bounds. -/
theorem syncTrap_bounded {ch : Chan} (i : TrapInfo) (hb : ch.ctl.bounded) : (syncTrap ch i).ctl.bounded := by
  have kept : ∀ q : Option Chan, (match q with | some f => keepReads ch f | none => ch).ctl = ch.ctl := by
    intro q; cases q <;> rfl
  unfold syncTrap
  apply takeTrap_bounded
  split
  · exact (congrArg Ctl.bounded (kept i.met)).mpr hb
  · split
    · exact (congrArg Ctl.bounded (kept i.met)).mpr hb
    · exact (congrArg Ctl.bounded (kept i.met)).mpr hb

/-- Taking a trap keeps DMEM canonical and leaves IMEM. -/
theorem takeTrap_mem {ch : Chan} (i : TrapInfo) (b : Bool) (ret : Word) (hw : Memory.wf ch.mem.dmem = true) :
    Memory.wf (takeTrap ch i b ret).mem.dmem = true ∧ (takeTrap ch i b ret).mem.imem = ch.mem.imem := by
  have entry : ∀ {j : TrapInfo} {k : Bool} {r : Chan}, tryEntry ch j k ret = .ok r →
      Memory.wf r.mem.dmem = true ∧ r.mem.imem = ch.mem.imem := by
    intro j k r h
    obtain ⟨q, hq, -, hm, -⟩ := tryEntry_ok h
    obtain ⟨rsp, m, rfl, hi, hk⟩ := pushReturnTo_ok hq
    rw [hm]; exact ⟨hk hw, hi⟩
  rcases takeTrap_cases ch i b ret with h | h | h
  · obtain ⟨f, e, m, he⟩ := fenceChan_spec ch 0x16 0 ret
    rw [h, he]; exact ⟨hw, rfl⟩
  · exact entry h
  · exact entry h

/-! ### One instruction (R192 to R194) -/

/-- A fetch that succeeds changes the fetch buffer, marks, counters and reports only. -/
theorem fetchOk_ok {ch r : Chan} {len : Nat} (h : fetchOk ch len = .ok r) :
    ∃ m e, r = { ch with mem := m, err := e } ∧ m.dmem = ch.mem.dmem ∧ m.imem = ch.mem.imem := by
  unfold fetchOk at h
  simp only at h
  split at h
  · cases h
  · split at h
    · cases h
    · cases h
      have fold : ∀ (ws : List Nat) (q : Chan), ∃ m e, ws.foldl imemCheck q = { q with mem := m, err := e } ∧
          m.dmem = q.mem.dmem ∧ m.imem = q.mem.imem := by
        intro ws
        induction ws with
        | nil => exact fun q => ⟨q.mem, q.err, rfl, rfl, rfl⟩
        | cons w t ih =>
          intro q
          obtain ⟨m, e, hc, hd, hi⟩ := imemCheck_spec q w
          obtain ⟨m', e', h', hd', hi'⟩ := ih (imemCheck q w)
          rw [List.foldl_cons, h', hc]
          rw [hc] at hd' hi'
          exact ⟨m', e', rfl, hd'.trans hd, hi'.trans hi⟩
      obtain ⟨m, e, hf, hd, hi⟩ := fold ((missingLines ch len).flatMap lineWords) ch
      rw [hf]
      exact ⟨_, e, rfl, hd, hi⟩

/-- What one instruction can do to its channel: nothing when the controller is not ready, a trap, the step past it, a
transfer, or a wait. -/
theorem runInstr_cases (len : Nat) (body : Chan → Except TrapInfo Done) (ch : Chan) :
    (ctlReady ch = false ∧ runInstr len body ch = ch) ∨
    (∃ i, fetchOk ch len = .error i ∧ runInstr len body ch = syncTrap ch i) ∨
    (∃ u, fetchOk ch len = .ok u ∧
      ((∃ i, body u = .error i ∧ runInstr len body ch = syncTrap u i) ∨
       (∃ r, body u = .ok (.seq r) ∧ runInstr len body ch = afterInstr (advance r len)) ∨
       (∃ r, body u = .ok (.jump r) ∧ runInstr len body ch = afterInstr r) ∨
       (∃ r k, body u = .ok (.wait r k) ∧
         runInstr len body ch = { r with ev := { r.ev with wait := some { kind := k, len := len } } }))) := by
  unfold runInstr
  split
  · next h => exact .inl ⟨h, rfl⟩
  · split
    · next e he => exact .inr (.inl ⟨e, he, rfl⟩)
    · next u hu =>
      refine .inr (.inr ⟨u, hu, ?_⟩)
      split
      · next e he => exact .inl ⟨e, he, rfl⟩
      · next r hr => exact .inr (.inl ⟨r, hr, rfl⟩)
      · next r hr => exact .inr (.inr (.inl ⟨r, hr, rfl⟩))
      · next r k hr => exact .inr (.inr (.inr ⟨r, k, hr, rfl⟩))

/-- One instruction keeps the counts in bounds when its body does. -/
theorem runInstr_bounded {len : Nat} {body : Chan → Except TrapInfo Done} {ch : Chan} (hb : ch.ctl.bounded)
    (hs : ∀ u r, u.ctl.bounded → (body u = .ok (.seq r) ∨ body u = .ok (.jump r) ∨ ∃ k, body u = .ok (.wait r k)) →
      r.ctl.bounded) : (runInstr len body ch).ctl.bounded := by
  rcases runInstr_cases len body ch with ⟨-, h⟩ | ⟨i, -, h⟩ | ⟨u, hu, h⟩
  · rw [h]; exact hb
  · rw [h]; exact syncTrap_bounded i hb
  · have hub : u.ctl.bounded := by obtain ⟨m, e, rfl, -, -⟩ := fetchOk_ok hu; exact hb
    rcases h with ⟨i, -, h⟩ | ⟨r, hr, h⟩ | ⟨r, hr, h⟩ | ⟨r, k, hr, h⟩
    · rw [h]; exact syncTrap_bounded i hub
    · have := hs u r hub (.inl hr)
      obtain ⟨pc, d, l, n, b, ha, hd⟩ := advance_spec r len
      obtain ⟨ev, hv⟩ := afterInstr_spec (advance r len)
      rw [h, hv, ha]
      exact ⟨this.1, this.2.1, Nat.le_trans hd this.2.2.1, this.2.2.2⟩
    · have := hs u r hub (.inr (.inl hr))
      obtain ⟨ev, hv⟩ := afterInstr_spec r
      rw [h, hv]; exact this
    · rw [h]; exact hs u r hub (.inr (.inr ⟨k, hr⟩))

end Sys2Proof.Machine
end

