-- ==== Sys2Proof/Laws/Keg.lean ====
section
/-! SUPPORT. What a keg frame's header and CRC read as once the frame is built (R317). Proofs cite these and do not unfold
the CRC. -/

namespace Sys2Proof.Machine

/-- The low bytes of a number do not depend on what lies above them. -/
theorem natBytes_mod (k x : Nat) : natBytes k (x % 256 ^ k) = natBytes k x := by
  induction k generalizing x with
  | zero => rfl
  | succ k ih =>
    simp only [natBytes]
    have h : x % 256 ^ (k + 1) / 256 = (x / 256) % 256 ^ k := by rw [Nat.pow_succ', Nat.mod_mul_right_div_self]
    rw [h, ih]
    congr 1
    apply BitVec.eq_of_toNat_eq
    simp only [BitVec.toNat_ofNat]
    rw [Nat.pow_succ']
    exact Nat.mod_mul_right_mod x 256 (256 ^ k)

/-- The first bytes of a longer run are the run of that length. -/
theorem natBytes_take (k m x : Nat) (h : k ≤ m) : (natBytes m x).take k = natBytes k x := by
  induction k generalizing m x with
  | zero => simp [natBytes]
  | succ k ih =>
    cases m with
    | zero => omega
    | succ m => simp only [natBytes, List.take_succ_cons]; rw [ih m (x / 256) (by omega)]

/-- Bytes 0 to 59 of a flit do not depend on its cell 15. -/
theorem natBytes_flit {x y : BitVec 512} (h : x.extractLsb' 0 480 = y.extractLsb' 0 480) :
    (natBytes 64 x.toNat).take 60 = (natBytes 64 y.toNat).take 60 := by
  rw [natBytes_take 60 64 _ (by decide), natBytes_take 60 64 _ (by decide), ← natBytes_mod 60 x.toNat,
    ← natBytes_mod 60 y.toNat]
  have e : x.toNat % 256 ^ 60 = y.toNat % 256 ^ 60 := by
    have h := congrArg BitVec.toNat h
    simp only [BitVec.extractLsb'_toNat, Nat.shiftRight_zero] at h
    rw [show (256 : Nat) = 2 ^ 8 by rfl, ← Nat.pow_mul, show 8 * 60 = 480 by rfl]
    exact h
  rw [e]

/-- Flit 0 after it has been replaced. -/
theorem flitOf_set_zero (f : Frame) (x : BitVec 512) : flitOf { f with flits := f.flits.set 0 x } 0 = x := by
  simp [flitOf, List.getD_eq_getElem?_getD]

/-- The bytes that the CRC covers are the same for a frame whose flit 0 differs in cell 15 only. -/
theorem crcBytes_set (f : Frame) (x : BitVec 512) (h : x.extractLsb' 0 480 = (flitOf f 0).extractLsb' 0 480) :
    crcBytes { f with flits := f.flits.set 0 x } = crcBytes f := by
  unfold crcBytes
  rw [flitOf_set_zero, natBytes_flit h]
  congr 2
  simp only [Vector.toList_set]
  cases hl : f.flits.toList with
  | nil => rfl
  | cons a t => rfl

/-- Cell 15 replaced by a CRC leaves the rest of a flit. -/
theorem sealed_low (x : BitVec 512) (c : Word) :
    ((x &&& ~~~(atCell 15 0xFFFFFFFF)) ||| atCell 15 c).extractLsb' 0 480 = x.extractLsb' 0 480 := by
  apply BitVec.eq_of_getLsbD_eq
  intro i hi
  have h : ∀ w : Word, (atCell 15 w).getLsbD i = false := by
    intro w
    simp [atCell, hi]
  simp only [BitVec.getLsbD_extractLsb', hi, decide_true, Bool.true_and, Nat.zero_add, BitVec.getLsbD_or,
    BitVec.getLsbD_and, BitVec.getLsbD_not, h]
  simp [show i < 512 by omega]

/-- Cell 15 replaced by a CRC reads as that CRC. -/
theorem sealed_high (x : BitVec 512) (c : Word) :
    ((x &&& ~~~(atCell 15 0xFFFFFFFF)) ||| atCell 15 c).extractLsb' 480 32 = c := by
  apply BitVec.eq_of_getLsbD_eq
  intro i hi
  have h : ∀ w : Word, (atCell 15 w).getLsbD (480 + i) = w.getLsbD i := by
    intro w
    have h512 : 480 + i < 512 := by omega
    simp [atCell, h512]
  have h512 : 480 + i < 512 := by omega
  have hone : (0xFFFFFFFF : Word).getLsbD i = true := by
    have : (0xFFFFFFFF : Word) = BitVec.allOnes 32 := by decide
    rw [this, BitVec.getLsbD_allOnes]; simpa using hi
  simp only [BitVec.getLsbD_extractLsb', hi, decide_true, Bool.true_and, BitVec.getLsbD_or, BitVec.getLsbD_and,
    BitVec.getLsbD_not, h, h512, hone]
  simp

/-- A frame whose CRC has been written passes the check of its CRC. -/
theorem crcOk_sealFrame (f : Frame) : crcOk (sealFrame f) = true := by
  unfold crcOk sealFrame headCell
  rw [flitOf_set_zero, crcBytes_set f _ (sealed_low _ _)]
  exact decide_eq_true (sealed_high _ _)

/-- A frame that is built passes the check of its CRC. -/
theorem crcOk_mkFrame (h : FrameHead) (fs : List Flit) : crcOk (mkFrame h fs) = true := crcOk_sealFrame _

/-- A frame that is built is of kind 0. -/
theorem frameKind_mkFrame (h : FrameHead) (fs : List Flit) : frameKind (mkFrame h fs) = 0 := by
  unfold mkFrame
  generalize (Vector.ofFn fun i : Fin 10 => if i.val = 0 then (0 : BitVec 512) else (fs.getD (i.val - 1) idleFlit).data) = v
  have t : ∀ i, (fs.getD i idleFlit).typ.toNat < 4 := fun i => (fs.getD i idleFlit).typ.isLt
  show (BitVec.ofNat 20 ((List.range 9).foldl (fun acc i => acc + (fs.getD i idleFlit).typ.toNat * 4 ^ i) 0)).toNat / 2 ^ 18 = 0
  have h0 := t 0; have h1 := t 1; have h2 := t 2; have h3 := t 3; have h4 := t 4
  have h5 := t 5; have h6 := t 6; have h7 := t 7; have h8 := t 8
  rw [BitVec.toNat_ofNat]
  simp only [List.range_succ, List.range_zero, List.foldl_append, List.foldl_cons, List.foldl_nil, List.nil_append]
  omega

/-- Writing the CRC leaves the header. -/
theorem headOf_sealFrame (f : Frame) : headOf (sealFrame f) = headOf f := by
  have low : ∀ k < 15, headCell (sealFrame f) k = headCell f k := by
    intro k hk
    unfold headCell sealFrame
    rw [flitOf_set_zero]
    apply BitVec.eq_of_getLsbD_eq
    intro i hi
    have h := congrArg (fun z => z.getLsbD (32 * k + i)) (sealed_low (flitOf f 0) (crc32c (crcBytes f)))
    have hl : 32 * k + i < 480 := by omega
    simpa [hi, hl] using h
  unfold headOf
  rw [low 0 (by decide), low 1 (by decide), low 2 (by decide), low 3 (by decide)]

/-- A cell that is placed in a flit is read back, and the other cells read as 0. -/
theorem atCell_cell (k j : Nat) (w : Word) (hk : k < 16) (hj : j < 16) :
    (atCell k w).extractLsb' (32 * j) 32 = if j = k then w else 0 := by
  apply BitVec.eq_of_getLsbD_eq
  intro i hi
  unfold atCell
  simp only [BitVec.getLsbD_extractLsb', hi, decide_true, Bool.true_and, BitVec.getLsbD_shiftLeft, BitVec.getLsbD_setWidth]
  have hn : 32 * j + i < 512 := by omega
  rcases Nat.lt_trichotomy j k with h | h | h
  · simp [hn, show 32 * j + i < 32 * k by omega, show j ≠ k by omega]
  · subst h; simp [hn, show ¬ 32 * j + i < 32 * j by omega, show i < 512 by omega]
  · rw [if_neg (by omega)]
    have : w.getLsbD (32 * j + i - 32 * k) = false := BitVec.getLsbD_of_ge _ _ (by omega)
    simp [this]

/-- The header that a frame is given is the header that it reads as. -/
theorem headOf_withHead (f : Frame) (h : FrameHead) : headOf (withHead f h) = h := by
  unfold withHead
  rw [headOf_sealFrame]
  have cell : ∀ j < 4, headCell { f with flits := f.flits.set 0 (packHead h) } j =
      if j = 0 then BitVec.ofNat 32 (h.seq.toNat + h.ackseq.toNat * 2 ^ 16)
      else if j = 1 then BitVec.ofNat 32 (b2n h.nak + h.ecred.toNat * 2 + h.sstart.toNat * 2 ^ 8 + h.sdepth.toNat * 2 ^ 17)
      else if j = 2 then h.vcred else h.cstate.setWidth 32 := by
    intro j hj
    unfold headCell packHead
    rw [flitOf_set_zero]
    simp only [BitVec.extractLsb'_or]
    rw [atCell_cell 0 j _ (by decide) (by omega), atCell_cell 1 j _ (by decide) (by omega),
      atCell_cell 2 j _ (by decide) (by omega), atCell_cell 3 j _ (by decide) (by omega)]
    rcases j with _ | _ | _ | _ | j
    · simp
    · simp
    · simp
    · simp
    · omega
  have h0 := cell 0 (by decide)
  have h1 := cell 1 (by decide)
  have h2 := cell 2 (by decide)
  have h3 := cell 3 (by decide)
  simp only [reduceIte, Nat.reduceEqDiff] at h0 h1 h2 h3
  clear cell
  generalize hg : ({ f with flits := f.flits.set 0 (packHead h) } : Frame) = g at h0 h1 h2 h3 ⊢
  clear hg
  obtain ⟨seq, ack, nak, ecred, sstart, sdepth, vcred, cstate⟩ := h
  unfold headOf
  rw [h0, h1, h2, h3]
  have bseq := seq.isLt
  have back := ack.isLt
  have becr := ecred.isLt
  have bss := sstart.isLt
  have bsd := sdepth.isLt
  have bnak : b2n nak < 2 := by cases nak <;> decide
  simp only [FrameHead.mk.injEq]
  refine ⟨?_, ?_, ?_, ?_, ?_, ?_, trivial, ?_⟩
  · apply BitVec.eq_of_toNat_eq; simp [Nat.shiftRight_eq_div_pow]; omega
  · apply BitVec.eq_of_toNat_eq; simp [Nat.shiftRight_eq_div_pow]; omega
  · cases nak <;> simp [bit, b2n, BitVec.getLsbD, Nat.testBit_zero] <;> omega
  · apply BitVec.eq_of_toNat_eq; simp [Nat.shiftRight_eq_div_pow]; omega
  · apply BitVec.eq_of_toNat_eq; simp [Nat.shiftRight_eq_div_pow]; omega
  · apply BitVec.eq_of_toNat_eq; simp [Nat.shiftRight_eq_div_pow]; omega
  · have := cstate.isLt
    apply BitVec.eq_of_toNat_eq; simp; omega

/-- A frame whose CRC cell is changed fails the check of its CRC. -/
theorem crcOk_broken (f : Frame) (c : Word) (hc : c ≠ crc32c (crcBytes f)) :
    crcOk { f with flits := f.flits.set 0 (((flitOf f 0) &&& ~~~(atCell 15 0xFFFFFFFF)) ||| atCell 15 c) } = false := by
  unfold crcOk headCell
  rw [flitOf_set_zero, crcBytes_set f _ (sealed_low _ _)]
  exact decide_eq_false (by rw [sealed_high]; exact hc)

end Sys2Proof.Machine
end

