-- ==== Sys2Proof/Laws/Shared.lean ====
section
/-! SUPPORT. What the operations that commands of several families share can do: the reads of an instruction that traps, the
queue of a report source, a wake of a pair, and a write of flash. -/

namespace Sys2Proof.Machine

/-! ### The reads of an instruction that traps (R240) -/

@[simp] theorem keepReads_ctl (ch f : Chan) : (keepReads ch f).ctl = ch.ctl := rfl
@[simp] theorem keepReads_ev (ch f : Chan) : (keepReads ch f).ev = ch.ev := rfl
@[simp] theorem keepReads_cstate (ch f : Chan) : (keepReads ch f).cstate = ch.cstate := rfl
@[simp] theorem keepReads_imem (ch f : Chan) : (keepReads ch f).mem.imem = ch.mem.imem := rfl
@[simp] theorem keepReads_dmem (ch f : Chan) : (keepReads ch f).mem.dmem = ch.mem.dmem := rfl
@[simp] theorem keepReads_err (ch f : Chan) : (keepReads ch f).err = f.err := rfl

/-- An instruction whose reads met nothing leaves the channel as it was before it. -/
@[simp] theorem keepReads_self (ch : Chan) : keepReads ch ch = ch := rfl

/-- What a trapping instruction leaves of its own: marks, counters and reports. -/
theorem keepReads_spec (ch f : Chan) :
    ∃ i d ic dc e, keepReads ch f = { ch with
      mem := { ch.mem with imarks := i, dmarks := d, imemCe := ic, dmemCe := dc }, err := e } :=
  ⟨_, _, _, _, _, rfl⟩

/-! ### The queue of a source (R24) -/

/-- A report enters the queue, is dropped and counted, or waits; and only a CE report is dropped. -/
theorem sourcePut_cases (s : Source) (r : Report) :
    sourcePut s r = { s with queue := s.queue ++ [r] } ∨
      (r.cls = .ce ∧ sourcePut s r = { s with dropped := s.dropped + 1 }) ∨
      (r.cls ≠ .ce ∧ sourcePut s r = { s with waiting := s.waiting ++ [r] }) := by
  unfold sourcePut
  split
  · exact .inl rfl
  · split
    · next h => exact .inr (.inl ⟨h, rfl⟩)
    · next h => exact .inr (.inr ⟨h, rfl⟩)

/-- A report other than a CE is in the queue or waits. -/
theorem sourcePut_holds {s : Source} {r : Report} (h : r.cls ≠ .ce) :
    r ∈ (sourcePut s r).queue ++ (sourcePut s r).waiting := by
  rcases sourcePut_cases s r with e | ⟨c, -⟩ | ⟨-, e⟩
  · simp [e]
  · exact absurd c h
  · simp [e]

/-! ### A wake of a pair (R419) -/

/-- Nothing is shared where no unit has woken its channel. -/
theorem shareWake_of_not {c : Ch} {old s : State} (h : (s.chan c).pwr.woken = false) : shareWake c old s = s := by
  simp [shareWake, h]

/-! ### HBM self-refresh (R417, R418) -/

@[simp] theorem selfRefresh_ctl (b : Bool) (ch : Chan) : (selfRefresh b ch).ctl = ch.ctl := rfl
@[simp] theorem selfRefresh_arr (b : Bool) (ch : Chan) : (selfRefresh b ch).arr = ch.arr := rfl
@[simp] theorem selfRefresh_mem (b : Bool) (ch : Chan) : (selfRefresh b ch).mem = ch.mem := rfl
@[simp] theorem selfRefresh_cstate (b : Bool) (ch : Chan) : (selfRefresh b ch).cstate = ch.cstate := rfl
@[simp] theorem selfRefresh_bytes (b : Bool) (ch : Chan) : (selfRefresh b ch).hbm.bytes = ch.hbm.bytes := rfl
@[simp] theorem selfRefresh_refresh (b : Bool) (ch : Chan) : (selfRefresh b ch).hbm.refresh = (b && ch.hbm.trained) := rfl

/-! ### Flash (R364) -/

/-- Programming keeps the canonical form. -/
theorem programBytes_wf {bs : List Byte} {m : List (Nat × Byte)} {a : Nat} (h : Memory.wf m = true) :
    Memory.wf (programBytes m a bs) = true := by
  induction bs generalizing m a with
  | nil => exact h
  | cons b t ih => exact ih (memSetByte_wf h)

/-- Writing a block anew keeps the canonical form. -/
theorem rewriteBlock_wf {n a k : Nat} {bs : List Byte} {m : List (Nat × Byte)} (h : Memory.wf m = true) :
    Memory.wf (rewriteBlock n a bs m k) = true := programBytes_wf (memSetBytes_wf h)

/-- A write of flash keeps the canonical form. -/
theorem flashPut_wf {t : Option Sfdp} {m : List (Nat × Byte)} {a : Nat} {bs : List Byte} (h : Memory.wf m = true) :
    Memory.wf (flashPut t m a bs) = true := by
  unfold flashPut
  split
  · exact programBytes_wf h
  · generalize List.range _ = ks
    induction ks generalizing m with
    | nil => exact h
    | cons k t ih => exact ih (rewriteBlock_wf h)

/-- A write of no byte writes nothing. -/
@[simp] theorem flashPut_nil (t : Option Sfdp) (m : List (Nat × Byte)) (a : Nat) : flashPut t m a [] = m := by
  unfold flashPut
  split <;> rfl

end Sys2Proof.Machine
end

