-- ==== Sys2Proof/WellFormed.lean ====
section
/-! DEFINITION. The commands that a sender can send: their numbers lie in the ranges that the spec gives them. The machine
takes any command; one that is not well formed names nothing that exists. -/

namespace Sys2Proof

/-- A link partner: a rate from 1 to 6 and a width of x1 to x16 (R339, R341). -/
def partnerOk (p : LinkPartner) : Bool :=
  decide (1 ≤ p.speed.toNat ∧ p.speed.toNat ≤ 6) && decide (p.width ∈ [1#5, 2, 4, 8, 16])

/-- The operands of a command lie in their ranges (R205, R231, R247, R255, R283, R317, R339, R345 to R348, R351, R360, R364,
R376). (DEDUCED, log 38) -/
def wellFormed (i : Instr) : Bool :=
  match i with
  | .nop c b0 b1 => decide (b0 = 0) || (readInstr c [b0, b1]).isNone
  | .memCeWriteback _ imem word => decide (word < if imem then 0x20000 else 0x40000)
  | .spargeRegionStart _ mem region => decide (region.toNat < [4096, 2048, 4608].getD mem.val 0)
  | .spargeUstoreRead _ _ addr => decide (addr < 17408)
  | .hbmScrubRead _ block => decide (block < 536870912)
  | .mgmtPacket _ out => out.all fun m => decide (m.1.toNat < 4096 ∧ m.2.length ≤ 576)
  | .channelLeaveReset _ _ copies => copies.all fun u => decide (u < 72)
  | .perstNRelease _ partner => partnerOk partner
  | .linkRetrain _ partner _ => partnerOk partner
  | .hostBar0RegisterRead _ off count => decide (off % 4 = 0 ∧ off + 4 * count ≤ 0x8000)
  | .hostBar0RegisterWrite _ off data _ => decide (off % 4 = 0 ∧ off + 4 * data.length ≤ 0x8000)
  | .hostDmemWindowRead _ off count => decide (off + count ≤ 0x8000)
  | .hostDmemWindowWrite _ off data _ => decide (off + data.length ≤ 0x8000)
  | .hostBar2Read _ addr count => decide (addr + count ≤ 17179869184)
  | .hostBar2Write _ addr data => decide (addr + data.length ≤ 17179869184)
  | .msixUnmask f vec => decide (vec < if f.val = 0 then 4 else 260)
  | .pldmFirmwareUpdate _ addr data => decide (addr + data.length ≤ 0x2000000)
  | .transition target _ => decide (1 ≤ target ∧ target ≤ 4)
  | .msixTableWrite f vec _ _ => decide (vec < if f.val = 0 then 4 else 260)
  | .flashServiceAccess _ addr access => decide (addr + access.size ≤ 0x2000000)
  | .dup _ | .drop _ | .swap _ | .over _ | .rot _ | .nip _ | .tuck _ | .twoDup _ | .twoDrop _
  | .pick _ _ | .toR _ | .rFrom _ | .rFetch _ | .rdrop _ | .lit8 _ _ | .lit16 _ _ | .lit24 _ _ | .litu16 _ _
  | .lith _ _ | .add _ | .adc _ | .sub _ | .sbc _ | .neg _ | .cmp _ | .and _ | .or _ | .xor _ | .not _ | .shl _
  | .shr _ | .sar _ | .rol _ | .ror _ | .tst _ | .mul _ | .mulh _ | .mulhu _ | .mulw _ | .mulwu _ | .divs _
  | .divu _ | .min _ | .max _ | .minu _ | .maxu _ | .abs _ | .clz _ | .ctz _ | .popc _ | .addi _ _ | .andi _ _
  | .ori _ _ | .xori _ _ | .cmpi _ _ | .shli _ _ | .shri _ _ | .sari _ _ | .rori _ _ | .chkb _ | .chkbu _
  | .ldB _ _ _ | .ldBu _ _ _ | .ldH _ _ _ | .ldHu _ _ _ | .ldW _ _ _ | .stB _ _ _ | .stH _ _ _ | .stW _ _ _
  | .iread _ | .ioIn _ _ | .ins _ | .ioOut _ _ | .outs _ | .toA _ _ | .aFrom _ _ | .adda _ _ _ | .jmp _ _
  | .jmps _ | .call _ _ _ | .calls _ _ | .ret _ | .reti _ | .brk _ | .loop _ _ | .endl _ | .rep _ _
  | .bcc _ _ _ | .fadd _ | .fsub _ | .fmul _ | .fdiv _ | .fsqrt _ | .fma _ | .fneg _ | .fabs _ | .fmin _
  | .fmax _ | .fcmp _ | .fcvtSW _ | .fcvtSWu _ | .fcvtWS _ | .fcvtWuS _ | .fcvtSH _ | .fcvtHS _ | .fcvtSBf _
  | .fcvtBfS _ | .permB4 _ _ | .permH2 _ _ | .addB4 _ | .subB4 _ | .addsB4 _ | .addusB4 _ | .subsB4 _
  | .subusB4 _ | .ceqB4 _ | .cgtB4 _ | .addH2 _ | .subH2 _ | .addsH2 _ | .addusH2 _ | .subsH2 _ | .subusH2 _
  | .ceqH2 _ | .cgtH2 _ | .minsB4 _ | .maxsB4 _ | .minuB4 _ | .maxuB4 _ | .mulB4 _ | .dotsB4 _ | .dotuB4 _
  | .avguB4 _ | .minsH2 _ | .maxsH2 _ | .minuH2 _ | .maxuH2 _ | .mulH2 _ | .dotsH2 _ | .dotuH2 _ | .avguH2 _
  | .aop _ | .ared _ | .afence _ | .rfence _ | .yield _ | .resume _ | .ei _ | .di _ | .wfi _ | .setvl _
  | .vld _ _ _ | .vldff _ _ _ | .vst _ _ _ | .vsplat _ | .vextr _ | .vdup _ | .vdrop _ | .vswap _ | .vover _
  | .vfadd _ | .vfsub _ | .vfmul _ | .vfma _ | .vfmin _ | .vfmax _ | .vfneg _ | .vfabs _ | .vfredsum _
  | .vcvtSW _ | .vcvtWS _ | .vadd _ | .vsub _ | .vmul _ | .vand _ | .vor _ | .vxor _ | .vredadd _
  | .asyncTrapEntry _ | .aopQueueEntryFree _ | .aredWaitEnd _ | .afenceWaitEnd _ | .rfenceWaitEnd _
  | .yieldStatusKnown _ | .resumeStallEnd _ | .outStallEnd _ | .wfiWake _ | .arrayOpIssue _ | .arrayAdmit _
  | .seqInc _ | .seqJmp _ | .seqJc _ | .seqJnc _ | .seqCall _ | .seqRet _ | .seqLoop _ | .seqLdloop _
  | .seqWait _ | .seqWaitj _ | .seqEnd _ | .seqTrappt _ | .seqEndtrap _ | .seqHalt _ | .gorValid _ _
  | .rootCountAdd _ _ | .rootClear _ | .rootSflag _ | .rootSnap _ | .rootLoad _ | .rootMerge _ | .rootXsend _
  | .rootRound _ | .edgeReleaseStrobe _ | .edgeStallLimit _ | .edgeSlotArrive _ _ | .yieldBoundary _
  | .trapSaveComplete _ | .signatureCompare _ _ | .planeCeWriteback _ _ _ | .planeStagingAccess _ _
  | .arrayQctlGo _ | .arrayQctlDrop _ | .arrayQctlFlush _ | .arrayTrapCtlAbandon _ | .arrayEdgeCtlWrite _ _
  | .gfdWrite _ _ _ | .gfdPreset _ _ | .arraySeedLoWrite _ _ | .arraySeedHiWrite _ _ | .arraySrEpochLoWrite _ _
  | .arraySrEpochHiWrite _ _ | .arraySrCtlMark _ | .lsnapWrite _ _ _ | .lauterXdestWrite _ _ _
  | .lrxExpectWrite _ _ | .splitRegisterLowRead _ _ | .stackPointerWrite _ _ _ | .intSet _ _
  | .registerWrite _ _ _ | .h2cMboxWrite _ _ | .c2hMboxWrite _ _ | .mgmtMbWrite _ _ | .planeRetSet _
  | .planeRetClear _ | .imemWaitLimit _ | .dmemWriteRetry _ _ _ | .spargeStep _ _ _ _ | .spargeStarved _ _
  | .rqSqdbWrite _ _ _ | .rqCqdbWrite _ _ _ | .rqCfgEnable _ _ _ | .rqCfgDisable _ _ _ | .doorbellSample _ _
  | .sqEntryFetch _ _ | .rackNop _ _ | .rackCopy _ _ _ | .rackFill _ _ _ | .rackFence _ _
  | .transferComplete _ _ _ | .cqWordRetry _ _ _ | .rqModTimerExpire _ _ | .inboundHbmWrite _
  | .inboundPlaneWrite _ | .inboundNotifyWrite _ _ _ | .responseReceive _ | .rackRtimeoutExpire _ _
  | .hbmRefresh _ | .millLoad _ _ | .millScrubCheck _ | .millParityError _ _ | .millEventEdge _ _
  | .millCtlUreset _ _ | .tapLockLost _ | .tapSigdetChange _ | .kegPortNegotiate _ _
  | .kegNegotiationDone _ _ _ | .kegNegotiationRetry _ _ | .kegLaneErrorLimit _ _ _ | .kegLaneLockLoss _ _ _
  | .kegPcfgReneg _ _ | .kegRenegRequest _ _ | .kegFrameTransmit _ _ | .routerPacketArrive _ _
  | .kegDownLimitExpire _ _ | .inboundImage _ | .kegFrameReceive _ _ _ | .timebaseSync _ | .timebaseHoldover
  | .tbCompareFire _ _ | .tbCmpctlArm _ _ | .tbCmpctlDisarm _ _ | .chPwrCtlDoze _ _ | .modPwrCtlDozeSet _
  | .modPwrCtlDozeClear _ | .dozeEntry _ | .idleEntry _ | .idleExit _ | .auxOnlyWrite _ | .auxPowerValid _
  | .auxPowerRemoved | .mainPowerStart | .mainPowerLost | .bothSuppliesLost | .inputTrip _
  | .inputSwitchReclose | .kegBypassOpen | .channelEnterRun _ | .channelRestart _ | .perstNAssert | .hotReset _
  | .flrChannelFunction _ | .flrPf0 | .pmStateChange _ _ | .hostConfigRequest _ _ | .hostUnsupportedRequest _
  | .hostPoisonedWrite _ | .hostReadCompletion _ _ _ _ | .hostReadTimeout _ _ | .errorReportAccept _
  | .channelOvertemp _ _ | .channelPllUnlock _ | .pairedCompareTimeout _ | .availRecordWrite _
  | .telemetryThreshold _ _ | .tamperDetect _ | .capCtlArm _ | .capCtlCancel _ | .captureEdge _ | .extest
  | .samplePreload | .idcode | .intest | .tapBypass | .dapCmd _ | .dapData _ _ | .dapStatus | .pwUnlock
  | .getChallenge | .crResponse | .dbgClose | .provision | .regRead | .regWrite | .memRead | .freezeRelease
  | .chReset | .dbgBreak | .dbgStep | .vendorTestCommand | .mctpControl _ | .pldmMonitoring _
  | .activateFirmware _ | .getVersion | .getCapabilities | .negotiateAlgorithms _ _ | .getDigests
  | .getCertificate | .challenge _ | .getMeasurements _ | .getNonce | .enrol _ _ | .commitFloor _ _
  | .setOwnerFloor _ _ | .setPassword _ _ _ | .setSparge _ _ | .mgmtYield _ _ | .restart _ _ | .readLog _ _
  | .controllerCoreCheck _ | .maltsterLockstepMismatch | .hostPortInternalError | .guardedWriteVerify _ _ _
  | .tapLock _ | .millClockTreeEdge _ _ _ _ _ | .kegPcfgEnable _ _ _ | .lidSwitchLatch _ => true

end Sys2Proof
end

