-- ==== Sys2Proof/Tests/Slice0.lean ====
section
/-! SUPPORT. The model's own tests: an ill-formed term for each check, a concrete state and operands that meet the
hypotheses of each statement, clause by clause at the ends of the ranges, and single steps against the spec. -/

namespace Sys2Proof.Tests

open Sys2Proof.Machine

-- One theorem after another: the kernel evaluations would otherwise hold a thread each while they wait for one another.
set_option Elab.async false

/-! ### States -/

/-- The machine after reset with channel 0 in RUN, as `f` leaves it. -/
def run (f : Chan → Chan) : State := State.reset.setChan 0 (f { Chan.reset 0 with cstate := .run })

/-- Channel 0 runs with the controller as `f` leaves it. -/
def ctlAs (f : Ctl → Ctl) : State := run fun ch => { ch with ctl := f ch.ctl }

/-- Channel 0 runs with these cells in core, top first. -/
def stack (ds : List Word) : State := ctlAs fun t => { t with ds := ds }

/-- The machine after reset with the hub as `f` leaves it. -/
def hubAs (f : Hub → Hub) : State := { State.reset with hub := f State.reset.hub }

/-- A block of data with these flits. -/
def frame (seq : Half) (flits : List Flit) : Frame :=
  mkFrame { seq := seq, ackseq := 0, nak := false, ecred := 0, sstart := 0, sdepth := 0, vcred := 0, cstate := 0 } flits

/-- What that block reads as: a sound frame of its sequence number. -/
theorem frame_reads (seq : Half) : (frame seq []).decoded = true ∧ frameKind (frame seq []) = 0 ∧ crcOk (frame seq []) = true ∧
    (headOf (frame seq [])).seq = seq :=
  ⟨rfl, frameKind_mkFrame _ _, crcOk_mkFrame _ _, congrArg FrameHead.seq (headOf_withHead _ _)⟩

/-! ### Ill-formed commands are refused -/

theorem test_nop_ill : wellFormed (.nop 0 0x20 0) = false ∧ wellFormed (.nop 0 0xFF 0x04) = false := by decide
theorem test_memCeWriteback_ill : wellFormed (.memCeWriteback 0 true 0x20000) = false ∧
    wellFormed (.memCeWriteback 0 false 0x40000) = false := by decide
theorem test_spargeRegionStart_ill : wellFormed (.spargeRegionStart 0 1 2048) = false := by decide
theorem test_spargeUstoreRead_ill : wellFormed (.spargeUstoreRead 0 0 17408) = false := by decide
theorem test_hbmScrubRead_ill : wellFormed (.hbmScrubRead 0 536870912) = false := by decide
theorem test_mgmtPacket_ill : wellFormed (.mgmtPacket 0 (some (0x1000, []))) = false := by decide
theorem test_channelLeaveReset_ill : wellFormed (.channelLeaveReset 0 { failing := none, lanes := 0, exhausted := [] } [72]) = false := by decide
theorem test_perstNRelease_ill : 
    wellFormed (.perstNRelease (Vector.replicate 6 0) { speed := 7, width := 4, flit := false, flipped := false }) = false := by
  decide
theorem test_linkRetrain_ill : 
    wellFormed (.linkRetrain (Vector.replicate 6 0) { speed := 1, width := 3, flit := false, flipped := false } 0) = false := by
  decide
theorem test_bar0Read_ill : wellFormed (.hostBar0RegisterRead 0 2 1) = false := by decide
theorem test_bar0Write_ill : wellFormed (.hostBar0RegisterWrite 0 0x7FFC [⟨0, 15⟩, ⟨0, 15⟩] []) = false := by decide
theorem test_windowRead_ill : wellFormed (.hostDmemWindowRead 0 0x7FFF 2) = false := by decide
theorem test_windowWrite_ill : wellFormed (.hostDmemWindowWrite 0 0x8000 [some 1] []) = false := by decide
theorem test_bar2Read_ill : wellFormed (.hostBar2Read 0 17179869183 2) = false := by decide
theorem test_bar2Write_ill : wellFormed (.hostBar2Write 0 17179869184 [some 1]) = false := by decide
theorem test_msixUnmask_ill : wellFormed (.msixUnmask 0 4) = false ∧ wellFormed (.msixUnmask 1 260) = false := by decide
theorem test_msixTableWrite_ill : wellFormed (.msixTableWrite 1 260 0 0) = false := by decide
theorem test_pldmFirmwareUpdate_ill : wellFormed (.pldmFirmwareUpdate false 0x2000000 [0]) = false := by decide
theorem test_transition_ill : wellFormed (.transition 0 { nonce := 0, sig := [] }) = false ∧
    wellFormed (.transition 5 { nonce := 0, sig := [] }) = false := by decide
theorem test_flashServiceAccess_ill : wellFormed (.flashServiceAccess true 0x2000000 (.write [0])) = false := by decide

/-! ### Instruction bytes, from the encoding tables of 08 -/

/-- The stack and literal rows: NOP, ROT, R@, PICK 6 and LIT24 with its three bytes, low first. -/
theorem test_readInstr_stack : readInstr 0 [0x00] = some (.nop 0 0 0, 1) ∧ readInstr 0 [0x05] = some (.rot 0, 1) ∧
    readInstr 0 [0x0A, 6] = some (.pick 0 6, 2) ∧ readInstr 0 [0x12, 1, 2, 3] = some (.lit24 0 0x030201, 4) := by decide

/-- The arithmetic and memory rows: SUB, ADDI, LD.W with a displacement and without one, and IN. -/
theorem test_readInstr_data : readInstr 0 [0x22] = some (.sub 0, 1) ∧
    readInstr 0 [0x40, 0xFE, 0xFF] = some (.addi 0 0xFFFE, 3) ∧ readInstr 0 [0x54, 0x17, 4, 1] = some (.ldW 0 0x17 0x0104, 4) ∧
    readInstr 0 [0x54, 0x1F, 4, 1] = some (.ldW 0 0x1F 0, 2) := by decide

/-- The control rows: CALL with its target and its mask, REP, and both pages. -/
theorem test_readInstr_flow : readInstr 0 [0x82, 0, 0x30, 0, 3, 5] = some (.call 0 0x003000 0x0503, 6) ∧
    readInstr 0 [0x89, 2, 0] = some (.rep 0 2, 3) ∧ readInstr 0 [0xFF, 0x04] = some (.wfi 0, 2) ∧
    readInstr 0 [0xFE, 0x01, 0x08] = some (.vld 0 0x08 0, 3) := by decide

/-- Reserved cells of the primary map and of the two pages. -/
theorem test_readInstr_reserved : readInstr 0 [0x0F] = none ∧ readInstr 0 [0xFD] = none ∧ readInstr 0 [0xFF, 0x05] = none ∧
    readInstr 0 [0xFE, 0x27] = none := by decide

/-! ### The queue and the stacks -/

/-- Meets EmptyQueueCountsTimebase with aux power and without. -/
theorem meets_EmptyQueueCountsTimebase :
    (hubAs fun h => { h with supply := { h.supply with aux := true } }).pending = [] ∧
    (hubAs fun h => { h with supply := { h.supply with aux := true } }).hub.supply.aux = true ∧
    (∀ c, ((hubAs fun h => { h with supply := { h.supply with aux := true } }).chan c).err.copies = []) ∧
    State.reset.pending = [] ∧ State.reset.hub.supply.aux = false := by decide

/-- Aux power, TIMEBASE at 1 at the end of a period of 10 µs, and compare unit 0 of channel 0 armed or not. -/
def ticking (r : Rate) (armed : Bool) : State :=
  let s := run fun ch => { ch with pwr := { ch.pwr with cmp0 := 1, arm0 := armed } }
  { s with hub := { s.hub with
      supply := { s.hub.supply with aux := true }, timebase := { s.hub.timebase with count := 1, since := 9999, rate := r } } }

/-- Meets the clauses of a tick at each rate, with no unit armed and with one that matches. -/
theorem meets_EmptyQueueCountsTimebase_units :
    ∀ p ∈ [(Rate.nominal, 2), (.fast, 3), (.slow, 1)], ∀ b : Bool, let s := ticking p.1 b
      s.pending = [] ∧ s.hub.supply.aux = true ∧ (∀ c, (s.chan c).err.copies = []) ∧ (s.chan 0).pwr.arm0 = b ∧
        (∀ d, d ≠ 0 → (s.chan d).pwr.arm0 = false ∧ (s.chan d).pwr.arm1 = false) ∧ (s.chan 0).pwr.arm1 = false ∧
        unitsRun (s.chan 0) = true ∧ (s.chan 0).pwr.tbWake = false ∧
        ((BitVec.ofNat 64 p.2).setWidth 32 - (s.chan 0).pwr.cmp0).toNat < 2 ^ 31 := by decide +kernel

/-- What the statements about instructions ( a -- … ) ask of a state. -/
def MeetsPops1 (s : State) (len : Nat) (g : Word → Ctl → List Word × Ctl) : Prop :=
  ∃ ch f r a rest, Fetches s 0 len ch ∧ fillData ch 1 = .ok f ∧ f.ctl.ds = a :: rest ∧
    pushData { f with ctl := (g a { f.ctl with ds := rest }).2 } (g a { f.ctl with ds := rest }).1 = .ok r

/-- As `MeetsPops1`, for ( a b -- … ). -/
def MeetsPops2 (s : State) (len : Nat) (g : Word → Word → Ctl → List Word × Ctl) : Prop :=
  ∃ ch f r a b rest, Fetches s 0 len ch ∧ fillData ch 2 = .ok f ∧ f.ctl.ds = b :: a :: rest ∧
    pushData { f with ctl := (g a b { f.ctl with ds := rest }).2 } (g a b { f.ctl with ds := rest }).1 = .ok r

/-- As `MeetsPops1`, for ( a b d -- … ). -/
def MeetsPops3 (s : State) (len : Nat) (g : Word → Word → Word → Ctl → List Word × Ctl) : Prop :=
  ∃ ch f r a b d rest, Fetches s 0 len ch ∧ fillData ch 3 = .ok f ∧ f.ctl.ds = d :: b :: a :: rest ∧
    pushData { f with ctl := (g a b d { f.ctl with ds := rest }).2 } (g a b d { f.ctl with ds := rest }).1 = .ok r

/-- As `MeetsPops1`, for ( -- … ). -/
def MeetsPushes (s : State) (len : Nat) (g : Ctl → List Word × Ctl) : Prop :=
  ∃ ch r, Fetches s 0 len ch ∧ pushData { ch with ctl := (g ch.ctl).2 } (g ch.ctl).1 = .ok r

/-- Meets StackInstructionsMoveCells: inputs in core, an input read back from DMEM, and a result that spills. -/
theorem meets_StackInstructionsMoveCells :
    (∃ ch, Fetches (stack []) 0 1 ch) ∧
    MeetsPops1 (stack [1, 2]) 1 (fun a t => ([a, a], t)) ∧
    MeetsPops1 (ctlAs fun t => { t with dsp := 4 }) 1 (fun _ t => ([], t)) ∧
    MeetsPops2 (ctlAs fun t => { t with ds := [1, 2, 3, 4, 5, 6, 7, 8], dspLimit := 8 }) 1 (fun a b t => ([a, b, a, b], t)) ∧
    MeetsPops3 (stack [3, 2, 1]) 1 (fun a b d t => ([b, d, a], t)) := by
  refine ⟨⟨_, rfl, rfl⟩, ⟨_, _, _, _, _, ⟨rfl, rfl⟩, rfl, rfl, rfl⟩, ⟨_, _, _, _, _, ⟨rfl, rfl⟩, rfl, rfl, rfl⟩,
    ⟨_, _, _, _, _, _, ⟨rfl, rfl⟩, rfl, rfl, rfl⟩, ⟨_, _, _, _, _, _, _, ⟨rfl, rfl⟩, rfl, rfl, rfl⟩⟩

/-- Meets the clause of PICK at its last index, 6. -/
theorem meets_StackInstructionsMoveCells_pick :
    (6 : Byte).toNat ≤ 6 ∧ ∃ ch f r, Fetches (stack [1, 2, 3, 4, 5, 6, 7]) 0 2 ch ∧
      fillData ch ((6 : Byte).toNat + 1) = .ok f ∧ pushData f [f.ctl.ds.getD 6 0] = .ok r :=
  ⟨by decide, _, _, _, ⟨rfl, rfl⟩, rfl, rfl⟩

/-- Meets the clauses of the return stack. -/
theorem meets_StackInstructionsMoveCells_return :
    (∃ ch f a rest q r, Fetches (stack [5]) 0 1 ch ∧ fillData ch 1 = .ok f ∧ f.ctl.ds = a :: rest ∧
      pushReturn { f with ctl := { f.ctl with ds := rest } } [a] = .ok q ∧ pushData q [] = .ok r) ∧
    (∃ ch x q r, Fetches (ctlAs fun t => { t with rs := [9] }) 0 1 ch ∧ popReturn ch 1 = .ok ([x], q) ∧
      pushData q [x] = .ok r) ∧
    (∃ ch x q r, Fetches (ctlAs fun t => { t with rs := [9] }) 0 1 ch ∧ popReturn ch 1 = .ok ([x], q) ∧
      pushData { q with ctl := { q.ctl with rs := x :: q.ctl.rs } } [x] = .ok r ∧ pushData q [] = .ok q) :=
  ⟨⟨_, _, _, _, _, _, ⟨rfl, rfl⟩, rfl, rfl, rfl, rfl⟩, ⟨_, _, _, _, ⟨rfl, rfl⟩, rfl, rfl⟩,
    ⟨_, _, _, _, ⟨rfl, rfl⟩, rfl, rfl, rfl⟩⟩

/-- Channel 0 runs with full stacks, whose pointers leave room for one cell below their limits. -/
def full : State := ctlAs fun t => { t with
  ds := List.replicate 8 1, dsp := 0xFFFFC, dspLimit := 0x100000, rs := List.replicate 16 2, rsp := 0xFFFF8, rspLimit := 0xFFFFC }

/-- Meets the clauses of cells that stay in core, that spill up to the limit, and that would pass it. -/
theorem meets_StackInstructionsMoveCells_spill :
    let ch := full.chan 0
    Memory.wf ch.mem.dmem = true ∧ (([] : List Word).reverse ++ ch.ctl.ds).length ≤ 8 ∧ ([5].reverse ++ ch.ctl.ds).length = 9 ∧
      ch.ctl.dsp.toNat + 4 * 1 ≤ min ch.ctl.dspLimit.toNat 0x100000 ∧
      min ch.ctl.dspLimit.toNat 0x100000 < ch.ctl.dsp.toNat + 4 * 2 ∧ ([5].reverse ++ ch.ctl.rs).length = 17 ∧
      ch.ctl.rsp.toNat + 4 * 1 ≤ min ch.ctl.rspLimit.toNat 0x100000 ∧
      min ch.ctl.rspLimit.toNat 0x100000 < ch.ctl.rsp.toNat + 4 * 2 := by decide

/-- Meets the clauses of cells that come back: down to the base, and one more. -/
theorem meets_StackInstructionsMoveCells_fill :
    let ch := (ctlAs fun t => { t with dsp := 8, dspBase := 4, rsp := 8, rspBase := 4 }).chan 0
    0 < 1 - ch.ctl.ds.length ∧ ch.ctl.dspBase.toNat + 4 * 1 ≤ ch.ctl.dsp.toNat ∧ ch.ctl.dsp.toNat < ch.ctl.dspBase.toNat + 4 * 2 ∧
      0 < 1 - ch.ctl.rs.length ∧ ch.ctl.rspBase.toNat + 4 * 1 ≤ ch.ctl.rsp.toNat ∧
      ch.ctl.rsp.toNat < ch.ctl.rspBase.toNat + 4 * 2 ∧
      ∀ j, j < 1 → markUe ch.mem.dmarks ((8 - 4 * (j + 1)) / 4) = false ∧ markCe ch.mem.dmarks ((8 - 4 * (j + 1)) / 4) = false := by
  decide

/-- Meets the clauses of DUNF with none, one and two cells in core, of RUNF and of VUNF. -/
theorem meets_StackInstructionsMoveCells_underflow :
    (∀ ds ∈ [[], [1], [1, 2]], ∃ ch, Fetches (stack ds) 0 1 ch ∧ ch.ctl.ds = ds ∧ ch.ctl.rs = [] ∧
      ch.ctl.dsp.toNat < ch.ctl.dspBase.toNat + 4 ∧ ch.ctl.rsp.toNat < ch.ctl.rspBase.toNat + 4) ∧
    (∃ ch, Fetches (stack []) 0 2 ch ∧ ch.ctl.vs = []) := by
  refine ⟨?_, _, ⟨rfl, rfl⟩, rfl⟩
  intro ds h
  simp only [List.mem_cons, List.not_mem_nil, or_false] at h
  rcases h with rfl | rfl | rfl <;> exact ⟨_, ⟨rfl, rfl⟩, rfl, rfl, by decide, by decide⟩

/-- Meets the clauses of DOVF, ROVF and VOVF, and of a cell that comes back from an uncorrectable word. -/
theorem meets_StackInstructionsMoveCells_overflow :
    (∃ ch, Fetches (ctlAs fun t => { t with ds := List.replicate 8 1, dspLimit := 3, rs := List.replicate 16 2, rspLimit := 3 }) 0 1 ch ∧
      ch.ctl.ds = 1 :: List.replicate 7 1 ∧ ch.ctl.rs.length = 16 ∧ min ch.ctl.dspLimit.toNat 0x100000 < ch.ctl.dsp.toNat + 4 ∧
      min ch.ctl.rspLimit.toNat 0x100000 < ch.ctl.rsp.toNat + 4) ∧
    (∃ ch, Fetches (ctlAs fun t => { t with ds := [5], vs := List.replicate 8 (Vector.replicate 256 1) }) 0 2 ch ∧
      ch.ctl.vs.length = 8 ∧ ch.ctl.ds = [5]) ∧
    (∃ ch, Fetches (run fun ch => { ch with
        ctl := { ch.ctl with dsp := 4 }, mem := { ch.mem with dmarks := [{ word := 0, ue := true, pend := false }] } }) 0 1 ch ∧
      ch.ctl.ds = [] ∧ ch.ctl.dspBase.toNat + 4 ≤ ch.ctl.dsp.toNat ∧ markUe ch.mem.dmarks ((ch.ctl.dsp.toNat - 4) / 4 * 4 / 4) = true) :=
  ⟨⟨_, ⟨rfl, rfl⟩, rfl, rfl, by decide, by decide⟩, ⟨_, ⟨rfl, rfl⟩, rfl, rfl⟩, ⟨_, ⟨rfl, rfl⟩, rfl, by decide, by decide⟩⟩

/-- Meets LiteralsAndAddressRegisters, the literals at a negative immediate. -/
theorem meets_LiteralsAndAddressRegisters :
    MeetsPushes (stack []) 2 (fun t => ([(0x80 : Byte).signExtend 32], t)) ∧
    MeetsPushes (stack [1]) 3 (fun t => ([(0x8000 : Half).zeroExtend 32], t)) ∧
    MeetsPushes (stack [1]) 4 (fun t => ([(0x800000 : BitVec 24).signExtend 32], t)) ∧
    MeetsPops1 (stack [1]) 3 (fun x t => ([(7 : Half) ++ x.extractLsb' 0 16], t)) ∧
    MeetsPops1 (stack [1]) 1 (fun x t => ([], { t with a := t.a.set 7 x })) ∧
    ∃ ch, Fetches (stack []) 0 3 ch :=
  ⟨⟨_, _, ⟨rfl, rfl⟩, rfl⟩, ⟨_, _, ⟨rfl, rfl⟩, rfl⟩, ⟨_, _, ⟨rfl, rfl⟩, rfl⟩, ⟨_, _, _, _, _, ⟨rfl, rfl⟩, rfl, rfl, rfl⟩,
    ⟨_, _, _, _, _, ⟨rfl, rfl⟩, rfl, rfl, rfl⟩, ⟨_, rfl, rfl⟩⟩

/-- Meets ReservedEncodingsRaiseUndef, each clause at the first reserved value. -/
theorem meets_ReservedEncodingsRaiseUndef :
    (∃ ch, Fetches (stack []) 0 2 ch) ∧ (∃ ch, Fetches (stack []) 0 1 ch) ∧ 6 < (7 : Byte).toNat ∧ 31 < (32 : Byte).toNat ∧
      3 < (4 : Byte).toNat ∧ 0x15 ≤ (0x1F : Byte).toNat ∧ (0x4F : Byte).toNat ≤ 0x4F ∧ 0xE4 ≤ (0xE4 : Byte).toNat ∧
      5 ≤ (5 : Byte).toNat ∧ (0x1B ≤ (0x1B : Byte).toNat ∧ (0x1B : Byte).toNat ≤ 0x1F) ∧ 0x27 ≤ (0x27 : Byte).toNat := by
  refine ⟨⟨_, rfl, rfl⟩, ⟨_, rfl, rfl⟩, ?_⟩
  decide

/-- Channel 0 runs at an address, with an uncorrectable word 2 of IMEM. -/
def fetching (pc : Word) : State := run fun ch => { ch with
  ctl := { ch.ctl with pc := pc }, mem := { ch.mem with imarks := [{ word := 2, ue := true, pend := false }] } }

/-- Meets the clauses of IFETCH: the first byte, and the second, beyond IMEM, and an uncorrectable second word. -/
theorem meets_ReservedEncodingsRaiseUndef_fetch :
    readInstr 0 [0x20] = some (.add 0, 1) ∧ readInstr 0 [0x10, 1] = some (.lit8 0 1, 2) ∧
    (∀ pc ∈ [(0x80000 : Word), 0x7FFFF, 7], ctlReady ((fetching pc).chan 0) = true ∧ ((fetching pc).chan 0).mem.fetchBuf = []) ∧
    0x80000 < (0x7FFFF : Word).toNat + 2 ∧ (7 : Word).toNat + 2 ≤ 0x80000 ∧
    (let ch := (fetching 7).chan 0
     (∀ m ∈ ch.mem.imarks, m.ue = true) ∧ ch.ctl.pc.toNat / 4 ≤ 2 ∧ 2 ≤ (ch.ctl.pc.toNat + 2 - 1) / 4 ∧
       markUe ch.mem.imarks 2 = true ∧ markUe ch.mem.imarks 1 = false) :=
  ⟨rfl, rfl, by simp; exact ⟨⟨rfl, rfl⟩, ⟨rfl, rfl⟩, rfl, rfl⟩, by simp, by simp, by decide⟩

/-! ### Integer instructions -/

/-- Meets SumsAndDifferencesSetNZCV at a sum that carries and a difference that borrows. -/
theorem meets_SumsAndDifferencesSetNZCV :
    MeetsPops2 (stack [1, 0xFFFFFFFF]) 1 (fun a b t => sumOf a b false t) ∧
    MeetsPops2 (stack [1, 0]) 1 (fun a b t => diffOf a b t.c t) ∧
    MeetsPops1 (stack [0x80000000]) 1 (fun a t => diffOf 0 a true t) ∧
    MeetsPops2 (stack [1, 1]) 1 (fun a b t => ([], (diffOf a b true t).2)) ∧
    MeetsPops1 (stack [1]) 3 (fun a t => sumOf a ((0x8000 : Half).signExtend 32) false t) :=
  ⟨⟨_, _, _, _, _, _, ⟨rfl, rfl⟩, rfl, rfl, rfl⟩, ⟨_, _, _, _, _, _, ⟨rfl, rfl⟩, rfl, rfl, rfl⟩,
    ⟨_, _, _, _, _, ⟨rfl, rfl⟩, rfl, rfl, rfl⟩, ⟨_, _, _, _, _, _, ⟨rfl, rfl⟩, rfl, rfl, rfl⟩,
    ⟨_, _, _, _, _, ⟨rfl, rfl⟩, rfl, rfl, rfl⟩⟩

/-- Meets OneResultInstructionsSetNZ, ABS at its overflow. -/
theorem meets_OneResultInstructionsSetNZ :
    MeetsPops2 (stack [1, 2]) 1 (fun a b t => nzOf (a &&& b) t) ∧
    MeetsPops1 (stack [0]) 3 (fun a t => nzOf (a ^^^ (0xFFFF : Half).zeroExtend 32) t) ∧
    MeetsPops1 (stack [0x80000000]) 1 (fun a t =>
      ([BitVec.ofNat 32 a.toInt.natAbs], { withNZ (BitVec.ofNat 32 a.toInt.natAbs) t with v := a == 0x80000000#32 })) :=
  ⟨⟨_, _, _, _, _, _, ⟨rfl, rfl⟩, rfl, rfl, rfl⟩, ⟨_, _, _, _, _, ⟨rfl, rfl⟩, rfl, rfl, rfl⟩,
    ⟨_, _, _, _, _, ⟨rfl, rfl⟩, rfl, rfl, rfl⟩⟩

/-- Meets ShiftsTakeTheWholeCount at counts 0, 32 and 2^32 − 1, and the immediate forms at 31. -/
theorem meets_ShiftsTakeTheWholeCount :
    MeetsPops2 (stack [0, 1]) 1 (fun x n t => leftOf x n.toNat t) ∧
    MeetsPops2 (stack [32, 1]) 1 (fun x n t => rightOf x n.toNat t) ∧
    MeetsPops2 (stack [0xFFFFFFFF, 1]) 1 (fun x n t => rightRoundOf x n.toNat t) ∧
    (31 : Byte).toNat ≤ 31 ∧ MeetsPops1 (stack [1]) 2 (fun x t => signedRightOf x (31 : Byte).toNat t) :=
  ⟨⟨_, _, _, _, _, _, ⟨rfl, rfl⟩, rfl, rfl, rfl⟩, ⟨_, _, _, _, _, _, ⟨rfl, rfl⟩, rfl, rfl, rfl⟩,
    ⟨_, _, _, _, _, _, ⟨rfl, rfl⟩, rfl, rfl, rfl⟩, by decide, ⟨_, _, _, _, _, ⟨rfl, rfl⟩, rfl, rfl, rfl⟩⟩

/-- Meets WideProductsAndQuotients at both corners of division and at an ordinary quotient. -/
theorem meets_WideProductsAndQuotients :
    let g := fun (a b : Word) (t : Ctl) =>
      if b = 0 then quotOf a 0xFFFFFFFF false (withFp 2 t)
      else if a = 0x80000000 ∧ b = 0xFFFFFFFF then quotOf 0 0x80000000 true (withFp 4 t)
      else quotOf (BitVec.ofInt 32 (a.toInt.tmod b.toInt)) (BitVec.ofInt 32 (a.toInt.tdiv b.toInt)) false t
    MeetsPops2 (stack [0, 7]) 1 g ∧ MeetsPops2 (stack [0xFFFFFFFF, 0x80000000]) 1 g ∧
      MeetsPops2 (stack [0xFFFFFFFF, 0x80000001]) 1 g :=
  ⟨⟨_, _, _, _, _, _, ⟨rfl, rfl⟩, rfl, rfl, rfl⟩, ⟨_, _, _, _, _, _, ⟨rfl, rfl⟩, rfl, rfl, rfl⟩,
    ⟨_, _, _, _, _, _, ⟨rfl, rfl⟩, rfl, rfl, rfl⟩⟩

/-- What BoundsChecksKeepOrTrap asks of CHKB at index `i` with bounds `lo` and `hi`. -/
def MeetsChkb (i lo hi : Word) : Prop := ∃ ch f r, Fetches (stack [hi, lo, i]) 0 1 ch ∧ fillData ch 3 = .ok f ∧
  f.ctl.ds = [hi, lo, i] ∧ pushData { f with ctl := { f.ctl with ds := [] } } [i] = .ok r

/-- Meets the clauses of CHKB at both ends of the range and one outside each. -/
theorem meets_BoundsChecksKeepOrTrap :
    (MeetsChkb 0xFFFFFFFF 0xFFFFFFFF 2 ∧ (0xFFFFFFFF : Word).toInt ≤ (0xFFFFFFFF : Word).toInt ∧
      (0xFFFFFFFF : Word).toInt ≤ (2 : Word).toInt) ∧
    (MeetsChkb 2 0xFFFFFFFF 2 ∧ (0xFFFFFFFF : Word).toInt ≤ (2 : Word).toInt ∧ (2 : Word).toInt ≤ (2 : Word).toInt) ∧
    (MeetsChkb 3 0xFFFFFFFF 2 ∧ ¬ (3 : Word).toInt ≤ (2 : Word).toInt) ∧
    (MeetsChkb 0xFFFFFFFE 0xFFFFFFFF 2 ∧ ¬ (0xFFFFFFFF : Word).toInt ≤ (0xFFFFFFFE : Word).toInt) :=
  ⟨⟨⟨_, _, _, ⟨rfl, rfl⟩, rfl, rfl, rfl⟩, by decide, by decide⟩, ⟨⟨_, _, _, ⟨rfl, rfl⟩, rfl, rfl, rfl⟩, by decide, by decide⟩,
    ⟨⟨_, _, _, ⟨rfl, rfl⟩, rfl, rfl, rfl⟩, by decide⟩, ⟨⟨_, _, _, ⟨rfl, rfl⟩, rfl, rfl, rfl⟩, by decide⟩⟩

/-- Meets the clauses of CHKBU below the limit and at it. -/
theorem meets_BoundsChecksKeepOrTrap_unsigned :
    (∃ ch f r, Fetches (stack [8, 7]) 0 1 ch ∧ fillData ch 2 = .ok f ∧ f.ctl.ds = [8, 7] ∧
      pushData { f with ctl := { f.ctl with ds := [] } } [7] = .ok r) ∧ (7 : Word).toNat < (8 : Word).toNat ∧
    (∃ ch f, Fetches (stack [8, 8]) 0 1 ch ∧ fillData ch 2 = .ok f ∧ f.ctl.ds = [8, 8]) ∧
      (8 : Word).toNat ≤ (8 : Word).toNat :=
  ⟨⟨_, _, _, ⟨rfl, rfl⟩, rfl, rfl, rfl⟩, by decide, ⟨_, _, ⟨rfl, rfl⟩, rfl, rfl⟩, by decide⟩

/-! ### Memory and I/O -/

/-- Meets AddressingBytesNameTheModes: the last byte of each row and both ends of the reserved ranges. -/
theorem meets_AddressingBytesNameTheModes :
    (1 ≤ (1 : Byte).toNat ∧ (1 : Byte).toNat ≤ 7) ∧ (1 ≤ (7 : Byte).toNat ∧ (7 : Byte).toNat ≤ 7) ∧ 40 ≤ (40 : Byte).toNat ∧
      40 ≤ (255 : Byte).toNat := by decide

/-- Meets ScalarAccessesAreChecked at the ends of the plain range and of each window. -/
theorem meets_ScalarAccessesAreChecked :
    (∀ p ∈ [((3 : Word), 4), (1, 2)], p.1.toNat % p.2 ≠ 0 ∧ p.2 ∈ [1, 2, 4]) ∧
    (∀ p ∈ [((0xFFFFF : Word), 1), (0xFFFFC, 4)], p.1.toNat % p.2 = 0 ∧ p.1.toNat < 0x100000) ∧
    (∀ p ∈ [((0x100000 : Word), 2), (0x2FFFFF, 1)],
      p.1.toNat % p.2 = 0 ∧ 0x100000 ≤ p.1.toNat ∧ p.1.toNat < 0x300000 ∧ p.2 ≠ 4) ∧
    (∀ a ∈ [(0x100000 : Word), 0x1FFFFC], a.toNat % 4 = 0 ∧ 0x100000 ≤ a.toNat ∧ a.toNat < 0x200000) ∧
    (∀ a ∈ [(0x200000 : Word), 0x2FFFFC], a.toNat % 4 = 0 ∧ 0x200000 ≤ a.toNat ∧ a.toNat < 0x300000) ∧
    (∀ a ∈ [(0x300000 : Word), 0xFFFFFFFC], a.toNat % 4 = 0 ∧ 0x300000 ≤ a.toNat) := by simp

/-- Meets the load clauses of LoadsPushTheAddressedBytes, at the last word of DMEM and with a mode that updates An. -/
theorem meets_LoadsPushTheAddressedBytes :
    (∃ ch f q r m w p, Fetches (stack [0xFFFFC]) 0 (amLen 1 0) ch ∧ decodeAm 0 0 false = .ok m ∧
      fillData ch (amPops m) = .ok f ∧
      place (amAddr { f.ctl with ds := f.ctl.ds.drop (amPops m) } m 4 (f.ctl.ds.take (amPops m))) 4 = .ok p ∧
      dmemRead { f with ctl := { f.ctl with ds := f.ctl.ds.drop (amPops m) } } (placeAddr p) = .ok (w, q) ∧
      pushData { q with ctl := amUpdate q.ctl m 4 } [w] = .ok r) ∧
    (∃ ch f q r m w p, Fetches (stack []) 0 (amLen 1 31) ch ∧ decodeAm 31 0 false = .ok m ∧
      fillData ch (amPops m) = .ok f ∧
      place (amAddr { f.ctl with ds := f.ctl.ds.drop (amPops m) } m 2 (f.ctl.ds.take (amPops m))) 2 = .ok p ∧
      dmemRead { f with ctl := { f.ctl with ds := f.ctl.ds.drop (amPops m) } } (placeAddr p) = .ok (w, q) ∧
      pushData { q with ctl := amUpdate q.ctl m 2 } [w] = .ok r) :=
  ⟨⟨_, _, _, _, _, _, _, ⟨rfl, rfl⟩, rfl, rfl, rfl, rfl, rfl⟩, ⟨_, _, _, _, _, _, _, ⟨rfl, rfl⟩, rfl, rfl, rfl, rfl, rfl⟩⟩

/-- Channel 0 runs with one address on its stack and a mark at word 4 of IMEM. -/
def marked (ds : List Word) : State := run fun ch =>
  { ch with ctl := { ch.ctl with ds := ds }, mem := { ch.mem with imarks := [{ word := 0x1FFFF, ue := true, pend := false }] } }

/-- Meets the clauses of IREAD: an unaligned address, one past IMEM, an uncorrectable word and a good one. -/
theorem meets_LoadsPushTheAddressedBytes_iread :
    (∀ a ∈ [(2 : Word), 0x80000, 0x7FFFC, 0], ∃ ch f, Fetches (marked [a]) 0 1 ch ∧ fillData ch 1 = .ok f ∧ f.ctl.ds = [a] ∧
      markUe f.mem.imarks (a.toNat / 4) = (a == 0x7FFFC)) ∧
    (2 : Word).toNat % 4 ≠ 0 ∧ 0x80000 ≤ (0x80000 : Word).toNat ∧ (0x7FFFC : Word).toNat < 0x80000 ∧
    (∃ ch f r, Fetches (marked [0]) 0 1 ch ∧ fillData ch 1 = .ok f ∧
      pushData (imemCheck { f with ctl := { f.ctl with ds := [] } } 0) [memWord f.mem.imem 0] = .ok r) := by
  refine ⟨?_, by decide, by decide, by decide, ⟨_, _, _, ⟨rfl, rfl⟩, rfl, rfl⟩⟩
  intro a h
  simp only [List.mem_cons, List.not_mem_nil, or_false] at h
  rcases h with rfl | rfl | rfl | rfl <;> exact ⟨_, _, ⟨rfl, rfl⟩, rfl, rfl, rfl⟩

/-- What StoresComplete and the frame of a store ask: a word stored at the last word of DMEM, canonical memory, and cells
in core. -/
theorem meets_StoresComplete :
    Memory.wf ((stack [0xFFFFC, 7]).chan 0).mem.dmem = true ∧ ((stack [0xFFFFC, 7]).chan 0).ctl.ds.length ≤ 8 ∧
    ∃ ch f q r m, Fetches (stack [0xFFFFC, 7]) 0 (amLen 1 0) ch ∧ decodeAm 0 0 false = .ok m ∧
      fillData ch (amPops m + 1) = .ok f ∧
      place (amAddr { f.ctl with ds := f.ctl.ds.drop (amPops m + 1) } m 4 (f.ctl.ds.take (amPops m + 1))) 4
        = .ok (.plain 0xFFFFC) ∧
      storePlace { f with ctl := { f.ctl with ds := f.ctl.ds.drop (amPops m + 1) } } (.plain 0xFFFFC) 4
        (f.ctl.ds.getD (amPops m) 0) = .ok q ∧ pushData { q with ctl := amUpdate q.ctl m 4 } [] = .ok r :=
  ⟨by decide, by decide, _, _, _, _, _, ⟨rfl, rfl⟩, rfl, rfl, rfl, rfl, rfl⟩

/-- The same for a store of one word through the ends of both windows. -/
theorem meets_StoresWriteExactlyTheirBytes_windows :
    ∀ x ∈ [((0x100000 : Word), Place.setWin 0), (0x2FFFFC, .clrWin 0xFFFFC)],
      ∃ ch f q m, Fetches (stack [x.1, 7]) 0 (amLen 1 0) ch ∧ decodeAm 0 0 false = .ok m ∧ fillData ch (amPops m + 1) = .ok f ∧
        place (amAddr { f.ctl with ds := f.ctl.ds.drop (amPops m + 1) } m 4 (f.ctl.ds.take (amPops m + 1))) 4 = .ok x.2 ∧
        storePlace { f with ctl := { f.ctl with ds := f.ctl.ds.drop (amPops m + 1) } } x.2 4 (f.ctl.ds.getD (amPops m) 0) = .ok q := by
  intro x h
  simp only [List.mem_cons, List.not_mem_nil, or_false] at h
  rcases h with rfl | rfl <;> exact ⟨_, _, _, _, ⟨rfl, rfl⟩, rfl, rfl, rfl, rfl⟩

/-- Meets the memory clauses of StoresWriteExactlyTheirBytes in a plain place and in both windows. -/
theorem meets_StoresWriteExactlyTheirBytes :
    Memory.wf (Chan.reset 0).mem.dmem = true ∧ (∀ p ∈ [Place.plain 0xFFFFC, .setWin 0, .clrWin 0xFFFFC],
      placeAddr p % 4 = 0 ∧ ∃ q, storePlace (Chan.reset 0) p 4 5 = .ok q) := by
  refine ⟨rfl, fun p h => ?_⟩
  simp only [List.mem_cons, List.not_mem_nil, or_false] at h
  rcases h with rfl | rfl | rfl <;> exact ⟨rfl, _, rfl⟩

/-- Meets the IN clauses of InAndOutReachTheRegisters: STATUS is a register, 0x2000 is none. -/
theorem meets_InAndOutReachTheRegisters_in :
    (∃ ch v r, Fetches (stack []) 0 3 ch ∧ ioRead (stack []).hub ch 0x0100 = some v ∧
      pushData (ioLatch (stack []).hub 0x0100 ch) [v] = .ok r) ∧
    (∃ ch, Fetches (stack []) 0 3 ch ∧ ioRead (stack []).hub ch 0x2000 = none) ∧
    (∃ ch f v r, Fetches (stack [0x100]) 0 1 ch ∧ fillData ch 1 = .ok f ∧ f.ctl.ds = [0x100] ∧ (0x100 : Word).toNat < 0x10000 ∧
      ioRead (stack [0x100]).hub { f with ctl := { f.ctl with ds := [] } } 0x100 = some v ∧
      pushData (ioLatch (stack [0x100]).hub 0x100 { f with ctl := { f.ctl with ds := [] } }) [v] = .ok r) ∧
    (∃ ch f, Fetches (stack [0x10000]) 0 1 ch ∧ fillData ch 1 = .ok f ∧ f.ctl.ds = [0x10000] ∧
      0x10000 ≤ (0x10000 : Word).toNat) :=
  ⟨⟨_, _, _, ⟨rfl, rfl⟩, rfl, rfl⟩, ⟨_, ⟨rfl, rfl⟩, rfl⟩, ⟨_, _, _, _, ⟨rfl, rfl⟩, rfl, rfl, by decide, rfl, rfl⟩,
    ⟨_, _, ⟨rfl, rfl⟩, rfl, rfl, by decide⟩⟩

/-- Meets the OUT clauses: INT_EN takes a write, 0x2000 is no register, and a repeated OUT may not name STATUS. -/
theorem meets_InAndOutReachTheRegisters_out :
    (∃ ch f, Fetches (stack [7]) 0 3 ch ∧ fillData ch 1 = .ok f ∧ f.ctl.ds = [7] ∧ ch.ctl.repact = false ∧
      ioAssigned (stack [7]).hub f 0x105 = true ∧ outBlocked f 0x105 7 = false ∧ asksDoze 0x105 7 = false ∧
      (∃ r, outEffect (stack [7]).hub 0x105 7 { f with ctl := { f.ctl with ds := [] } } = .ok r) ∧
      ioAssigned (stack [7]).hub f 0x2000 = false) ∧
    (∃ ch, Fetches (ctlAs fun t => { t with repact := true, repc := 2 }) 0 3 ch ∧ ch.ctl.repact = true ∧
      repBarred 0x100 = true ∧ repBarred 0x11F = true) ∧
    (∃ ch f, Fetches (stack [0x105, 7]) 0 1 ch ∧ fillData ch 1 = .ok f ∧ fillData ch 2 = .ok f ∧
      f.ctl.ds = [0x105, 7] ∧ f.ctl.ds.headD 0 = 0x105 ∧ ch.ctl.repact = false ∧ (0x105 : Word).toNat < 0x10000 ∧
      ioAssigned (stack [0x105, 7]).hub f 0x105 = true ∧ outBlocked f 0x105 7 = false ∧ asksDoze 0x105 7 = false ∧
      ∃ r, outEffect (stack [0x105, 7]).hub 0x105 7 { f with ctl := { f.ctl with ds := [] } } = .ok r) :=
  ⟨⟨_, _, ⟨rfl, rfl⟩, rfl, rfl, rfl, by decide +kernel, by decide +kernel, by decide +kernel, ⟨_, if_neg (by decide)⟩,
      by decide +kernel⟩, ⟨_, ⟨rfl, rfl⟩, rfl, rfl, rfl⟩,
    ⟨_, _, ⟨rfl, rfl⟩, rfl, rfl, rfl, rfl, rfl, by decide, by decide +kernel, by decide +kernel, by decide +kernel,
      _, if_neg (by decide)⟩⟩

/-- Meets the clauses of OUTS that traps: no register at an address, and a repeated one to STATUS. -/
theorem meets_InAndOutReachTheRegisters_outsTraps :
    (∀ a ∈ [(0x10000 : Word), 0x2000], ∃ ch f, Fetches (stack [a, 7]) 0 1 ch ∧ fillData ch 1 = .ok f ∧ fillData ch 2 = .ok f ∧
      f.ctl.ds = [a, 7] ∧ f.ctl.ds.headD 0 = a ∧ ch.ctl.repact = false) ∧
    0x10000 ≤ (0x10000 : Word).toNat ∧ ioAssigned (stack [0x2000, 7]).hub ((stack [0x2000, 7]).chan 0) 0x2000 = false ∧
    (∃ ch f, Fetches (ctlAs fun t => { t with repact := true, repc := 2, ds := [0x100] }) 0 1 ch ∧ fillData ch 1 = .ok f ∧
      ch.ctl.repact = true ∧ repBarred (f.ctl.ds.headD 0).toNat = true) := by
  refine ⟨?_, by decide, by decide +kernel, _, _, ⟨rfl, rfl⟩, rfl, rfl, rfl⟩
  intro a h
  simp only [List.mem_cons, List.not_mem_nil, or_false] at h
  rcases h with rfl | rfl <;> exact ⟨_, _, ⟨rfl, rfl⟩, rfl, rfl, rfl, rfl, rfl⟩

/-- Channel 0 runs under TB_WAKE, with a value of TB_CMPCTL on its stack that arms unit 0, which matches. -/
def arming : State := run fun ch => { ch with ctl := { ch.ctl with ds := [1] }, pwr := { ch.pwr with tbWake := true } }

/-- Meets the clause of an OUT that wakes the channel, and of one that does not. -/
theorem meets_InAndOutReachTheRegisters_wake :
    ∃ ch f, Fetches arming 0 3 ch ∧ fillData ch 1 = .ok f ∧ f.ctl.ds = [1] ∧ ch.ctl.repact = false ∧
      ∀ p ∈ [(0x1C46, true), (0x105, false)], ioAssigned arming.hub f p.1 = true ∧ outBlocked f p.1 1 = false ∧
        asksDoze p.1 1 = false ∧ ∃ r, outEffect arming.hub p.1 1 { f with ctl := { f.ctl with ds := [] } } = .ok r ∧
          f.pwr.woken = false ∧ r.pwr.woken = p.2 := by
  refine ⟨_, _, ⟨rfl, rfl⟩, rfl, rfl, rfl, ?_⟩
  intro p h
  simp only [List.mem_cons, List.not_mem_nil, or_false] at h
  rcases h with rfl | rfl <;>
    exact ⟨by decide +kernel, by decide +kernel, by decide +kernel, _, if_neg (by decide), rfl, by decide +kernel⟩

/-! ### Control flow -/

/-- Meets JumpsAndBranchesGoToTheirTargets: targets at the end of IMEM and past it, and both outcomes of a condition. -/
theorem meets_JumpsAndBranchesGoToTheirTargets :
    (∃ ch, Fetches (stack []) 0 4 ch) ∧ (0x7FFFF : BitVec 24).toNat < 2 ^ 19 ∧ 2 ^ 19 ≤ (0x80000 : BitVec 24).toNat ∧
    (∃ ch f r, Fetches (stack [0x40]) 0 1 ch ∧ fillData ch 1 = .ok f ∧ f.ctl.ds = [0x40] ∧
      pushData { f with ctl := { f.ctl with ds := [], pc := 0x40 } } [] = .ok r) ∧
    (∃ ch, Fetches (ctlAs fun t => { t with z := true }) 0 3 ch ∧ condHolds ch.ctl 0 = true ∧ condHolds ch.ctl 1 = false) :=
  ⟨⟨_, rfl, rfl⟩, by decide, by decide, ⟨_, _, _, ⟨rfl, rfl⟩, rfl, rfl, rfl⟩, ⟨_, ⟨rfl, rfl⟩, rfl, rfl⟩⟩

/-- The controller with one loop level whose end is 0x20. -/
def looped (lc : Word) (t : Ctl) : Ctl :=
  { t with depth := 1, levels := Vector.replicate 4 { ls := 0x10, le := 0x20, lc := lc } }

/-- Meets LoopsFireAtTheirEnd: no level, a level that does not end here, counts 2 and 1. -/
theorem meets_LoopsFireAtTheirEnd :
    Ctl.reset.depth = 0 ∧ (looped 2 Ctl.reset).depth ≤ 4 ∧ 0 < (looped 2 Ctl.reset).depth ∧
    (levelAt (looped 2 Ctl.reset) 0).le.zeroExtend 32 ≠ (0x21 : Word) ∧
    (levelAt (looped 2 Ctl.reset) 0).le.zeroExtend 32 = (0x20 : Word) ∧ 1 < (levelAt (looped 2 Ctl.reset) 0).lc.toNat ∧
    (levelAt (looped 1 Ctl.reset) 0).lc = 1 := by decide

/-- Meets the clauses of LOOP and ENDL: a body that ends at the end of IMEM and one past it, 3 and 4 open levels, counts
0 and 1. -/
theorem meets_LoopsFireAtTheirEnd_loop :
    (∃ ch f, Fetches (ctlAs fun t => { t with pc := 0x7FFFC, ds := [1], depth := 3 }) 0 3 ch ∧ fillData ch 1 = .ok f ∧
      f.ctl.ds = [1] ∧ f.ctl.depth < 4 ∧ (1 : Word) ≠ 0 ∧ (ch.ctl.pc + 3 + (1 : Half).zeroExtend 32).toNat ≤ 0x80000 ∧
      0x80000 < (ch.ctl.pc + 3 + (2 : Half).zeroExtend 32).toNat) ∧
    (∃ ch f, Fetches (stack [0]) 0 3 ch ∧ fillData ch 1 = .ok f ∧ f.ctl.ds = [0] ∧ f.ctl.depth < 4) ∧
    (∃ ch f, Fetches (ctlAs fun t => { t with ds := [1], depth := 4 }) 0 3 ch ∧ fillData ch 1 = .ok f ∧ f.ctl.ds = [1] ∧
      4 ≤ f.ctl.depth) ∧
    (∃ ch, Fetches (stack []) 0 1 ch ∧ ch.ctl.depth = 0) ∧ (∃ ch, Fetches (ctlAs (looped 1)) 0 1 ch ∧ 0 < ch.ctl.depth) := by
  refine ⟨⟨_, _, ⟨rfl, rfl⟩, rfl, rfl, ?_, ?_, ?_, ?_⟩, ⟨_, _, ⟨rfl, rfl⟩, rfl, rfl, ?_⟩, ⟨_, _, ⟨rfl, rfl⟩, rfl, rfl, ?_⟩,
    ⟨_, ⟨rfl, rfl⟩, rfl⟩, ⟨_, ⟨rfl, rfl⟩, ?_⟩⟩ <;> decide +kernel

/-- Meets RepRepeatsTheNextInstruction: counts 0, 1 and 2. -/
theorem meets_RepRepeatsTheNextInstruction :
    (∃ ch, Fetches (stack []) 0 3 ch ∧ readInstr 0 (memBytes ch.mem.imem (ch.ctl.pc + 3).toNat 6) = some (.nop 0 0 0, 1)) ∧
    (let s := run fun ch => { ch with mem := { ch.mem with imem := [(3, 0x81)] } }
     ∃ ch, Fetches s 0 3 ch ∧ readInstr 0 (memBytes ch.mem.imem (ch.ctl.pc + 3).toNat 6) = some (.jmps 0, 1)) ∧
    Ctl.reset.repact = false ∧
    (let t := { Ctl.reset with repact := true, repc := 2 }; t.repact = true ∧ 1 < t.repc.toNat) ∧
    (let t := { Ctl.reset with repact := true, repc := 1 }; t.repact = true ∧ t.repc = 1) :=
  ⟨⟨_, ⟨rfl, rfl⟩, rfl⟩, ⟨_, ⟨rfl, rfl⟩, rfl⟩, rfl, by decide, by decide⟩

/-- Meets CallsPushTheirFrame: the last target and mask and the first beyond each, with an item of every kind saved. -/
theorem meets_CallsPushTheirFrame :
    (0x7FFFF : BitVec 24).toNat < 2 ^ 19 ∧ 2 ^ 19 ≤ (0x80000 : BitVec 24).toNat ∧ (0xF01 : Half).toNat < 2 ^ 12 ∧
    2 ^ 12 ≤ (0x1000 : Half).toNat ∧
    (∃ ch q, Fetches (ctlAs (looped 2)) 0 6 ch ∧ pushReturn (arrive ch (ch.ctl.pc + 6))
      ([ch.ctl.a[0]] ++ nestBlock ch.ctl ++ [BitVec.ofNat 32 ch.ctl.vl, statusWord ch.ctl &&& 31, ch.ctl.fpctl.zeroExtend 32]
        ++ [(0xF01 : Half).zeroExtend 32, ch.ctl.pc + 6]) = .ok q) ∧
    (∃ ch f q, Fetches (stack [0x40]) 0 3 ch ∧ fillData ch 1 = .ok f ∧ f.ctl.ds = [0x40] ∧
      pushReturn (arrive { f with ctl := { f.ctl with ds := [] } } (f.ctl.pc + 3)) [0, f.ctl.pc + 3] = .ok q) :=
  ⟨by decide, by decide, by decide, by decide, ⟨_, _, ⟨rfl, rfl⟩, rfl⟩, ⟨_, _, _, ⟨rfl, rfl⟩, rfl, rfl, rfl⟩⟩

/-- Meets the first part of ReturnsRestoreOrRefuseTheirFrame: a frame of every kind of item that fits in core. -/
theorem meets_ReturnsRestoreOrRefuseTheirFrame :
    let u := arrive ((stack []).chan 0) 6
    u.ctl.bounded ∧ (0xF01 : Half).toNat < 2 ^ 12 ∧ u.ctl.rs.length + (callFrame u.ctl 0xF01).length + 1 ≤ 16 ∧
      ∃ q k : Chan, callTo 6 0xF01 ((stack []).chan 0) 0x40 = .ok q ∧ k.ctl.rs = q.ctl.rs ∧ k.ctl.bounded :=
  ⟨⟨by decide, by decide, by decide, by decide, by decide⟩, by decide, by decide, _, _, rfl, rfl,
    by decide, by decide, by decide, by decide, by decide⟩

/-- Meets the clauses of RET and RETI: frames that pass the check and frames that do not. -/
theorem meets_ReturnsRestoreOrRefuseTheirFrame_frames :
    (∃ ch r, Fetches (ctlAs fun t => { t with rs := [0x40, 0] }) 0 1 ch ∧ returnCall ch = .ok r) ∧
    (∃ ch r, Fetches (ctlAs fun t => { t with rs := [0x40, 0x00010B00, 0, 0, 0, 0, 0] }) 0 1 ch ∧ returnTrap ch = .ok r) ∧
    (∃ ch q, Fetches (ctlAs fun t => { t with rs := [0x40, 0x1000] }) 0 1 ch ∧ popReturn ch 2 = .ok ([0x40, 0x1000], q) ∧
      2 ^ 12 ≤ (0x1000 : Word).toNat ∧ (0x1000 : Word) ≠ 0x00010B00) :=
  ⟨⟨_, _, ⟨rfl, rfl⟩, rfl⟩, ⟨_, _, ⟨rfl, rfl⟩, rfl⟩, ⟨_, _, ⟨rfl, rfl⟩, rfl, by decide, by decide⟩⟩

/-- Meets TrapEntryPushesItsFrame and RetiRestoresWhatTheTrapSaved: vector 1 and vector 10 with INMCHK 0, and a line with
INMCHK 1. -/
theorem meets_TrapEntryPushesItsFrame :
    (∃ q, pushReturnTo (Ctl.reset.rspLimit.toNat + 256) (Chan.reset 0)
      (nestBlock Ctl.reset ++ [0, 0, 0, statusWord Ctl.reset, 0x00010B00, 5]) = .ok q) ∧
    (∀ v ∈ [1, 10], ¬ (Ctl.reset.inmchk = true ∧ (1 ≤ v ∧ v ≤ 7 ∨ v = 10)) ∧ v < 2 ^ 8) ∧
    ¬ ({ Ctl.reset with inmchk := true }.inmchk = true ∧ (1 ≤ 47 ∧ 47 ≤ 7 ∨ 47 = 10)) ∧
    Ctl.reset.bounded ∧ fld Ctl.reset.fpctl 0 3 ≤ 4 ∧ Ctl.reset.rs.length + 3 * Ctl.reset.depth + 7 ≤ 16 :=
  ⟨⟨_, rfl⟩, by decide, by decide, ⟨by decide, by decide, by decide, by decide, by decide⟩, by decide, by decide⟩

/-- Meets RetiRestoresWhatTheTrapSaved with three open levels: a handler that left the return stack as the entry left it. -/
theorem meets_RetiRestoresWhatTheTrapSaved :
    let t := { Ctl.reset with depth := 3 }
    let ch := { Chan.reset 0 with ctl := t }
    t.bounded ∧ fld t.fpctl 0 3 ≤ 4 ∧ t.rs.length + 3 * t.depth + 7 ≤ 16 ∧ ¬ (t.inmchk = true) ∧
      ∃ k : Chan, k.ctl.rs = (takeTrap ch { vec := 7, cause := 1, addr := 0 } false 5).ctl.rs :=
  ⟨⟨by decide, by decide, by decide, by decide, by decide⟩, by decide, by decide, by decide, _, rfl⟩

/-- Meets TrapsAreTakenAtBoundaries: BRK, a pending line, and a cause of vector 7 while INMCHK is 1. -/
theorem meets_TrapsAreTakenAtBoundaries :
    (∃ ch, Fetches (stack []) 0 1 ch) ∧
    (let s := run fun ch => { ch with ctl := { ch.ctl with ie := true }, ev := { ch.ev with intPend := 8, intEn := 8 } }
     chanRunning (s.chan 0) = true ∧ (s.chan 0).ev.wait = none ∧
       (s.chan 0).pwr.reqHost = false ∧ takeable (s.chan 0) = some { vec := 19, cause := 0, addr := 0 }) ∧
    (let s := ctlAs fun t => { t with inmchk := true }
     (s.chan 0).ctl.inmchk = true ∧ (1 ≤ 7 ∧ 7 ≤ 7) ∧ (s.chan 0).cstate ≠ .fenced) :=
  ⟨⟨_, rfl, rfl⟩, ⟨rfl, rfl, rfl, rfl⟩, ⟨rfl, by decide, by decide⟩⟩

/-- Meets PendingEventsAreTakenInOrder: each kind of event with those before it absent, lines 0 and 31 at the ends. -/
theorem meets_PendingEventsAreTakenInOrder :
    (∃ e : Events, e.mchk = [2] ∧ Ctl.reset.inmchk = false) ∧
    (∃ e : Events, e.mchk = [] ∧ e.brkDebug = true) ∧ (∃ e : Events, e.mchk = [] ∧ e.brkDebug = false ∧ e.brkStep = true) ∧
    (∃ (e : Events) (t : Ctl), e.mchk = [2] ∧ t.inmchk = true ∧ t.ie = true ∧ e.brkDebug = false ∧ e.brkStep = false ∧
      e.array = some 6) ∧
    (∃ e : Events, e.mchk = [] ∧ e.brkDebug = false ∧ e.brkStep = false ∧ e.array = none ∧ e.hold = true) ∧
    (∃ e : Events, e.array = none ∧ e.hold = false ∧ (e.intPend &&& e.intEn).getLsbD 0 = true) ∧
    (∃ e : Events, e.array = none ∧ e.hold = false ∧ (e.intPend &&& e.intEn).getLsbD 31 = true ∧
      ∀ j < 31, (e.intPend &&& e.intEn).getLsbD j = false) :=
  ⟨⟨{ Events.reset with mchk := [2] }, rfl, rfl⟩, ⟨{ Events.reset with brkDebug := true }, rfl, rfl⟩,
    ⟨{ Events.reset with brkStep := true }, rfl, rfl, rfl⟩,
    ⟨{ Events.reset with mchk := [2], array := some 6 }, { Ctl.reset with inmchk := true, ie := true }, rfl, rfl, rfl, rfl,
      rfl, rfl⟩,
    ⟨{ Events.reset with hold := true }, rfl, rfl, rfl, rfl, rfl⟩,
    ⟨{ Events.reset with intPend := 1, intEn := 1 }, rfl, rfl, by decide⟩,
    ⟨{ Events.reset with intPend := 0x80000000, intEn := 0x80000000 }, rfl, rfl, by decide, by decide⟩⟩

/-! ### Floating-point and vectors -/

/-- Meets FloatInstructionsDeliverTheSharedPolicy, one instruction of each arity. -/
theorem meets_FloatInstructionsDeliverTheSharedPolicy :
    MeetsPops1 (stack [0x7F800001]) 1 (fun a t => fpOf (fSqrt (fmtS t.fpctl) a.toNat) t) ∧
    MeetsPops2 (stack [0x3F800000, 0x3F800000]) 1 (fun a b t => fpOf (fAdd (fmtS t.fpctl) a.toNat b.toNat) t) ∧
    MeetsPops3 (stack [1, 2, 3]) 1 (fun a b d t => fpOf (fFma (fmtS t.fpctl) a.toNat b.toNat d.toNat) t) :=
  ⟨⟨_, _, _, _, _, ⟨rfl, rfl⟩, rfl, rfl, rfl⟩, ⟨_, _, _, _, _, _, ⟨rfl, rfl⟩, rfl, rfl, rfl⟩,
    ⟨_, _, _, _, _, _, _, ⟨rfl, rfl⟩, rfl, rfl, rfl⟩⟩

/-- Meets FcmpSetsFlagsByTheRelation: its inputs are in core, and each relation occurs. -/
theorem meets_FcmpSetsFlagsByTheRelation :
    MeetsPops2 (stack [0x7FC00000, 0]) 1 (fun _ _ t => ([], t)) ∧
    (let r := fun a b : Nat => fOrder (fRead (fmtS 0) a).1 (fRead (fmtS 0) b).1
     r 0 0x3F800000 = some .lt ∧ r 0x80000000 0 = some .eq ∧ r 0x3F800000 0 = some .gt ∧ r 0x7FC00000 0 = none) :=
  ⟨⟨_, _, _, _, _, _, ⟨rfl, rfl⟩, rfl, rfl, rfl⟩, by decide +kernel⟩

/-- Meets NansAndFloatEdges: a signaling and a quiet NaN, the least and the greatest normal number, each rounding mode. -/
theorem meets_NansAndFloatEdges :
    (nan32 0x7F800001 || nan32 0) = true ∧ snan32 0x7F800001 = true ∧ (nan32 0 || nan32 0x7FC00000) = true ∧
    (∀ a ∈ [(0x00800000 : Word), 0xFF7FFFFF], nan32 a = false ∧ a.extractLsb' 23 8 ≠ 0xFF ∧ a.extractLsb' 23 8 ≠ 0) ∧
    (0xFF7FFFFF : Word).msb = true ∧ (4 : BitVec 10).toNat % 8 ≤ 4 := by
  refine ⟨rfl, rfl, rfl, ?_, rfl, by decide⟩
  intro a h
  simp only [List.mem_cons, List.not_mem_nil, or_false] at h
  rcases h with rfl | rfl <;> exact ⟨rfl, by decide, by decide⟩

/-- Meets ShortVectorsWorkLaneByLane, and its permutations at their last operand byte. -/
theorem meets_ShortVectorsWorkLaneByLane :
    MeetsPops2 (stack [1, 2]) 1 (fun a b t => ([byBytes (fun x y => x + y) a b], t)) ∧
    MeetsPops3 (stack [1, 2, 3]) 1 (fun acc _ _ t => ([acc], t)) ∧
    MeetsPops1 (stack [1]) 2 (fun a t => ([a], t)) ∧ (3 : Byte).toNat ≤ 3 :=
  ⟨⟨_, _, _, _, _, _, ⟨rfl, rfl⟩, rfl, rfl, rfl⟩, ⟨_, _, _, _, _, _, _, ⟨rfl, rfl⟩, rfl, rfl, rfl⟩,
    ⟨_, _, _, _, _, ⟨rfl, rfl⟩, rfl, rfl, rfl⟩, by decide⟩

/-- Channel 0 runs with `n` entries on its vector stack, these cells and this VL. -/
def vecs (n vl : Nat) (ds : List Word) : State :=
  ctlAs fun t => { t with vs := List.replicate n (Vector.replicate 256 1), vl := vl, ds := ds }

/-- Meets LongVectorsWorkElementByElement: SETVL past 256, a push onto the eighth entry, copies and element-wise work. -/
theorem meets_LongVectorsWorkElementByElement :
    MeetsPops1 (stack [300]) 2 (fun n t =>
      ([BitVec.ofNat 32 (min n.toNat 256)], { t with vl := min n.toNat 256, vff := false })) ∧
    (∃ ch f r, Fetches (vecs 7 256 [5]) 0 2 ch ∧ fillData ch 1 = .ok f ∧ f.ctl.ds = [5] ∧ ch.ctl.vs.length < 8 ∧
      pushData { f with ctl := { f.ctl with
        ds := [], vs := (Vector.ofFn fun n : Fin 256 => if n.val < f.ctl.vl then 5 else 0) :: f.ctl.vs } } [] = .ok r) ∧
    (∃ ch f v r, Fetches (vecs 1 256 [255]) 0 2 ch ∧ fillData ch 1 = .ok f ∧ f.ctl.ds = [255] ∧ f.ctl.vs = [v] ∧
      pushData { f with ctl := { f.ctl with ds := [] } } [v.toList.getD 255 0] = .ok r) ∧
    (∃ ch v below, Fetches (vecs 7 256 []) 0 2 ch ∧ ch.ctl.vs = v :: below ∧ below.length < 7) ∧
    (∃ ch v w below, Fetches (vecs 7 256 []) 0 2 ch ∧ ch.ctl.vs = w :: v :: below ∧ below.length < 6) ∧
    (∃ ch, Fetches (vecs 8 256 []) 0 2 ch ∧ 3 ≤ ch.ctl.vs.length ∧ ch.ctl.vs.length ≤ 8) := by
  refine ⟨⟨_, _, _, _, _, ⟨rfl, rfl⟩, rfl, rfl, rfl⟩, ⟨_, _, _, ⟨rfl, rfl⟩, rfl, rfl, ?_, rfl⟩,
    ⟨_, _, _, _, ⟨rfl, rfl⟩, rfl, rfl, rfl, rfl⟩, ⟨_, _, _, ⟨rfl, rfl⟩, rfl, ?_⟩, ⟨_, _, _, _, ⟨rfl, rfl⟩, rfl, ?_⟩,
    ⟨_, ⟨rfl, rfl⟩, ?_, ?_⟩⟩ <;> decide

/-- Meets ReductionsAddInElementOrder at VL 0, 1, 2 and 256. -/
theorem meets_ReductionsAddInElementOrder : ∀ vl ∈ [0, 1, 2, 256], vl ≤ 256 ∧
    ∃ ch v r, Fetches (vecs 1 vl []) 0 2 ch ∧ ch.ctl.vs = [v] ∧ ch.ctl.vl = vl ∧
      pushData { ch with ctl := { ch.ctl with vs := [] } } [0] = .ok r := by
  intro vl h
  simp only [List.mem_cons, List.not_mem_nil, or_false] at h
  rcases h with rfl | rfl | rfl | rfl <;> exact ⟨by decide, _, _, _, ⟨rfl, rfl⟩, rfl, rfl, rfl⟩

/-- Meets the first part of VectorAccessesMoveElementsOrFault: two elements that end at the end of DMEM. -/
theorem meets_VectorAccessesMoveElementsOrFault :
    let s := vecs 7 2 [0xFFFF8]
    Memory.wf (s.chan 0).mem.dmem = true ∧ ∃ ch f r, Fetches s 0 (amLen 2 0) ch ∧ decodeAm 0 0 true = .ok .stack ∧
      fillData ch (amPops .stack) = .ok f ∧ ch.ctl.vl ≤ 256 ∧ ch.ctl.vs.length < 8 ∧ ch.ctl.vs ≠ [] ∧ ch.ctl.ds.length ≤ 8 ∧
      (∀ k < 2, ∀ load, ¬ elemBad { f with ctl := { f.ctl with ds := f.ctl.ds.drop 1 } } (0xFFFF8 + 4 * k) load) ∧
      pushData { elemChecks { f with ctl := { f.ctl with ds := [] } } 0xFFFF8 2 with ctl := { f.ctl with ds := [] } } []
        = .ok r := by
  refine ⟨by decide, _, _, _, ⟨rfl, rfl⟩, rfl, rfl, ?_, ?_, ?_, ?_, ?_, rfl⟩
  · decide
  · decide
  · decide
  · decide
  · intro k hk load h
    rcases h with h | ⟨-, j, -, h⟩
    · omega
    · cases h

/-- Meets the faulting part: the second element is the first that reaches beyond DMEM, and one that holds an uncorrectable
word. -/
theorem meets_VectorAccessesMoveElementsOrFault_faults :
    (∃ ch f, Fetches (vecs 1 2 [0xFFFFC]) 0 (amLen 2 0) ch ∧ decodeAm 0 0 true = .ok .stack ∧ fillData ch 1 = .ok f ∧
      (1 : Nat) < ch.ctl.vl ∧ ch.ctl.vl ≤ 256 ∧ ch.ctl.vs ≠ [] ∧
      (∀ load, elemBad { f with ctl := { f.ctl with ds := [] } } (0xFFFFC + 4 * 1) load)) ∧
    elemBad { Chan.reset 0 with mem := { ChanMem.reset with dmarks := [{ word := 1, ue := true, pend := false }] } } 4 true ∧
    (0x100000 < (0xFFFFC + 4 * 1) % 2 ^ 32 + 4 ∧ (0xFFFFC + 4 * 1) % 2 ^ 32 < 0x300000) ∧ (4 + 4 * 0) % 2 ^ 32 + 4 ≤ 0x100000 := by
  refine ⟨⟨_, _, ⟨rfl, rfl⟩, rfl, rfl, ?_, ?_, ?_, fun _ => .inl (by decide)⟩, .inr ⟨rfl, 0, by decide, by decide⟩,
    by decide, by decide⟩
  all_goals decide

/-- Meets the completion part: VLD and VLDFF with seven entries on the vector stack, VST with one. -/
theorem meets_VectorAccessesMoveElementsOrFault_completes :
    (∀ n ∈ [7, 1], let s := vecs n 2 [0xFFFF8]
      ctlReady (s.chan 0) = true ∧ ∃ ch, fetchOk (s.chan 0) (amLen 2 0) = .ok ch ∧ decodeAm 0 0 true = .ok .stack ∧
        amPops .stack ≤ ch.ctl.ds.length ∧ ch.ctl.ds.length ≤ 8 ∧ ch.ctl.vl ≤ 256 ∧ ch.ctl.vs.length < 8 ∧ ch.ctl.vs ≠ [] ∧
        ∀ k < 2, ∀ load, ¬ elemBad ch (0xFFFF8 + 4 * k) load) := by
  intro n h
  simp only [List.mem_cons, List.not_mem_nil, or_false] at h
  rcases h with rfl | rfl
  all_goals
    refine ⟨rfl, _, rfl, rfl, by decide, by decide, by decide, by decide, by decide, fun k hk load h => ?_⟩
    rcases h with h | ⟨-, j, -, h⟩
    · omega
    · cases h

/-! ### The array queue, fences and waits -/

/-- Channel 0 runs with an op in its queue of `n`, one address on its stack, and an uncorrectable word 8. -/
def queued (n : Nat) (a : Word) : State := run fun ch => { ch with
  ctl := { ch.ctl with ds := [a] }, seq := { ch.seq with queue := List.replicate n 0 }
  mem := { ch.mem with dmarks := [{ word := 8, ue := true, pend := false }] } }

/-- Meets the AOP clauses of AopAndAredUseTheArrayQueue at the ends of each range, with 63 and 64 ops queued. -/
theorem meets_AopAndAredUseTheArrayQueue :
    (∀ n ∈ [63, 64], ∀ a ∈ [(0 : Word), 0xFFFF0], ∃ ch f, Fetches (queued n a) 0 1 ch ∧ fillData ch 1 = .ok f ∧
      f.ctl.ds = [a] ∧ f.seq.queue.length = n) ∧
    (0xFFFF0 : Word).toNat % 4 = 0 ∧ (0xFFFF0 : Word).toNat + 16 ≤ 0x100000 ∧
    (∀ k < 4, markUe ((queued 0 0).chan 0).mem.dmarks ((0xFFFF0 : Word).toNat / 4 + k) = false) ∧
    (1 : Word).toNat % 4 ≠ 0 ∧ ((0xFFFF4 : Word).toNat < 0x100000 ∧ 0x100000 < (0xFFFF4 : Word).toNat + 16) ∧
    0x100000 ≤ (0x100000 : Word).toNat ∧ (0x2FFFFC : Word).toNat < 0x300000 ∧ 0x300000 ≤ (0x300000 : Word).toNat := by
  refine ⟨?_, by simp, by simp, by decide, by simp, by simp, by simp, by simp, by simp⟩
  intro n hn a ha
  simp only [List.mem_cons, List.not_mem_nil, or_false] at hn ha
  rcases hn with rfl | rfl <;> rcases ha with rfl | rfl <;> exact ⟨_, _, ⟨rfl, rfl⟩, rfl, rfl, rfl⟩

/-- Meets the ARED clauses at tag 63, 64, 0x100 and 0x101. -/
theorem meets_AopAndAredUseTheArrayQueue_ared :
    (∀ n ∈ [(63 : Word), 64, 0x100, 0x101], ∃ ch f, Fetches (stack [n]) 0 1 ch ∧ fillData ch 1 = .ok f ∧ f.ctl.ds = [n]) ∧
    (63 : Word).toNat < 64 ∧ 64 ≤ (64 : Word).toNat ∧ (64 : Word) ≠ 0x100 ∧ (64 : Word) ≠ 0x101 := by
  refine ⟨?_, by decide, by decide, by decide, by decide⟩
  intro n h
  simp only [List.mem_cons, List.not_mem_nil, or_false] at h
  rcases h with rfl | rfl | rfl | rfl <;> exact ⟨_, _, ⟨rfl, rfl⟩, rfl, rfl⟩

/-- Meets the completion part: the last quadword of DMEM with 63 ops queued, and each operand of ARED. -/
theorem meets_AopAndAredUseTheArrayQueue_completes :
    (let s := queued 63 0xFFFF0
     ctlReady (s.chan 0) = true ∧ ∃ ch, fetchOk (s.chan 0) 1 = .ok ch ∧ ch.ctl.ds = [0xFFFF0] ∧ ch.seq.queue.length < 64 ∧
       ∀ k < 4, markUe ch.mem.dmarks ((0xFFFF0 : Word).toNat / 4 + k) = false) ∧
    (∀ n ∈ [(0 : Word), 63, 0x100, 0x101], let s := stack [n]
      ctlReady (s.chan 0) = true ∧ ∃ ch, fetchOk (s.chan 0) 1 = .ok ch ∧ ch.ctl.ds = [n] ∧
        tagEnded ch (n.extractLsb' 0 6) = true ∧ allEnded ch = true ∧ ch.lau.expect.toNat ≤ ch.lau.rxCount.toNat) := by
  refine ⟨⟨rfl, _, rfl, rfl, by decide, by decide⟩, ?_⟩
  intro n h
  simp only [List.mem_cons, List.not_mem_nil, or_false] at h
  rcases h with rfl | rfl | rfl | rfl <;> exact ⟨rfl, _, rfl, rfl, by decide, by decide, by decide⟩

/-- An op of routine 1 that runs at word 0. -/
def op (word : Quad) (upc : BitVec 14) : OpCtx :=
  { word := word, step := 0, ucount := 0, upc := upc, stack := [], ulc := Vector.replicate 4 0, pb := Vector.replicate 4 0
    descA := 0, descB := 0, gorAge := 0, gorVal := false, gorReq := false, cntAge := 0, cntReq := false, seed := 0, drawN := 0 }

/-- Channel 0 runs with `f` applied to its trap records and pending events, and perhaps an op. -/
def trapAs (cur : Option OpCtx) (f : Trap → Trap) (e : Events → Events) (t : Ctl → Ctl) : State := run fun ch => { ch with
  seq := { ch.seq with cur := cur }, trap := f ch.trap, ev := e ch.ev, ctl := t ch.ctl }

/-- Meets the clauses of YIELD: a trap held, no op, an op, an answer, and none. -/
theorem meets_FencesYieldsAndWaitsEndOnce_yield :
    (∃ ch p, Fetches (trapAs none (fun t => { t with state := 2 }) id id) 0 2 ch ∧ ch.trap.state = 2 ∧ ch.ctl.ypend = false ∧
      pushData ch [0] = .ok p) ∧
    (∃ ch p, Fetches (stack []) 0 2 ch ∧ ch.ctl.ypend = false ∧ ch.trap.state ≠ 1 ∧ ch.trap.state ≠ 2 ∧ ch.seq.cur = none ∧
      pushData ch [0] = .ok p) ∧
    (∃ ch p, Fetches (trapAs (some (op 0 0)) id id id) 0 2 ch ∧ ch.ctl.ypend = false ∧ ch.trap.state ≠ 1 ∧
      ch.trap.state ≠ 2 ∧ ch.seq.cur ≠ none ∧ ch.trap.yreq = none ∧ ch.ev.yieldAns = none ∧ pushData ch [0] = .ok p) ∧
    (∃ ch p, Fetches (trapAs none id (fun e => { e with yieldAns := some 2 }) (fun t => { t with ypend := true })) 0 2 ch ∧
      ch.ctl.ypend = true ∧ ch.ev.yieldAns = some 2 ∧ pushData ch [0] = .ok p) ∧
    (∃ ch p, Fetches (ctlAs fun t => { t with ypend := true }) 0 2 ch ∧ ch.ctl.ypend = true ∧ ch.ev.yieldAns = none ∧
      pushData ch [0] = .ok p) := by
  refine ⟨⟨_, _, ⟨rfl, rfl⟩, rfl, rfl, rfl⟩, ⟨_, _, ⟨rfl, rfl⟩, rfl, ?_, ?_, rfl, rfl⟩,
    ⟨_, _, ⟨rfl, rfl⟩, rfl, ?_, ?_, ?_, rfl, rfl, rfl⟩, ⟨_, _, ⟨rfl, rfl⟩, rfl, rfl, rfl⟩, ⟨_, _, ⟨rfl, rfl⟩, rfl, rfl, rfl⟩⟩
    <;> decide

/-- Meets the clauses of RESUME: no trap held, a trap without saved state, and one with, with an op running and without. -/
theorem meets_FencesYieldsAndWaitsEndOnce_resume :
    (∃ ch p, Fetches (stack []) 0 2 ch ∧ ch.trap.state ≠ 2 ∧ pushData ch [1] = .ok p) ∧
    (∃ ch p, Fetches (trapAs none (fun t => { t with state := 2, save := Vector.replicate 20 0x10000000 }) id id) 0 2 ch ∧
      ch.trap.state = 2 ∧ ch.trap.save[0].getLsbD 28 = true ∧ pushData ch [2] = .ok p) ∧
    (∀ cur ∈ [none, some (op 0 0)], ∃ ch p, Fetches (trapAs cur (fun t => { t with state := 2 }) id id) 0 2 ch ∧
      ch.trap.state = 2 ∧ ch.trap.save[0].getLsbD 28 = false ∧ ch.seq.cur = cur ∧ pushData ch [0] = .ok p) := by
  refine ⟨⟨_, _, ⟨rfl, rfl⟩, ?_, rfl⟩, ⟨_, _, ⟨rfl, rfl⟩, rfl, rfl, rfl⟩, ?_⟩
  · decide
  · intro cur h
    simp only [List.mem_cons, List.not_mem_nil, or_false] at h
    rcases h with rfl | rfl <;> exact ⟨_, _, ⟨rfl, rfl⟩, rfl, rfl, rfl, rfl⟩

/-- Channel 0 waits. -/
def waiting (k : WaitKind) (len : Nat) (ds : List Word) : State := run fun ch => { ch with
  ctl := { ch.ctl with ds := ds }, ev := { ch.ev with wait := some { kind := k, len := len } } }

/-- Meets the clauses of the commands that end a wait. -/
theorem meets_FencesYieldsAndWaitsEndOnce_ends :
    (InWait (waiting .aop 1 [0xFFFF0]) 0 .aop 1 ∧ ((waiting .aop 1 [0xFFFF0]).chan 0).ctl.ds = [0xFFFF0] ∧
      ((waiting .aop 1 [0xFFFF0]).chan 0).seq.queue.length < 64) ∧
    (InWait (waiting .ared 1 [0x100]) 0 .ared 1 ∧ aredReady ((waiting .ared 1 [0x100]).chan 0) 0x100 = some true) ∧
    (InWait (waiting .afence 1 []) 0 .afence 1 ∧ arrayEmpty ((waiting .afence 1 []).chan 0) = true ∧
      ((waiting .afence 1 []).chan 0).lau.roots = []) ∧
    (InWait (waiting (.rfence []) 1 []) 0 (.rfence []) 1 ∧ rfenceDone ((waiting (.rfence []) 1 []).chan 0) [] = true) ∧
    (InWait (waiting .resume 2 []) 0 .resume 2) ∧
    (InWait (waiting (.out 0x105 7 false) 3 [7]) 0 (.out 0x105 7 false) 3 ∧ asksDoze 0x105 7 = false ∧
      outBlocked ((waiting (.out 0x105 7 false) 3 [7]).chan 0) 0x105 7 = false) := by
  refine ⟨⟨⟨?_, rfl⟩, rfl, ?_⟩, ⟨⟨?_, rfl⟩, ?_⟩, ⟨⟨?_, rfl⟩, ?_, rfl⟩, ⟨⟨?_, rfl⟩, ?_⟩, ⟨?_, rfl⟩, ⟨⟨?_, rfl⟩, ?_, ?_⟩⟩
    <;> decide +kernel

/-- Meets the remaining clauses: YIELD's answer, an OUT that asks for DOZE, one that a running array blocks, and WFI. -/
theorem meets_FencesYieldsAndWaitsEndOnce_rest :
    (let s := run fun ch => { ch with ev := { ch.ev with yieldAns := some 0, wait := some { kind := .yield, len := 2 } } }
     InWait s 0 .yield 2 ∧ (s.chan 0).ev.yieldAns = some 0) ∧
    (InWait (waiting (.out 0x1CC0 2 false) 3 [2]) 0 (.out 0x1CC0 2 false) 3 ∧ asksDoze 0x1CC0 2 = true ∧
      ((waiting (.out 0x1CC0 2 false) 3 [2]).chan 0).pwr.reqCtl = false) ∧
    (∃ f, Fetches (queued 1 3) 0 3 f ∧ f.ctl.ds = [3] ∧ f.ctl.repact = false ∧
      ioAssigned (queued 1 3).hub f 0x200 = true ∧ outBlocked f 0x200 3 = true) ∧
    (let s := run fun ch => { ch with
       ev := { ch.ev with intPend := 1, intEn := 1, wait := some { kind := .wfi, len := 2 } } }
     (s.chan 0).ev.wait = some { kind := .wfi, len := 2 } ∧ memoriesClocked (s.chan 0) = true ∧
       wfiEvent (s.chan 0) = true) := by
  refine ⟨⟨⟨rfl, rfl⟩, rfl⟩, ⟨⟨rfl, rfl⟩, ?_, rfl⟩, ⟨_, ⟨rfl, rfl⟩, rfl, rfl, ?_, ?_⟩, ⟨rfl, ?_, ?_⟩⟩ <;> decide +kernel

/-- Meets the clauses of a YIELD that finds the array restoring, drawing latches, and at an op's word. -/
theorem meets_FencesYieldsAndWaitsEndOnce_yieldWords :
    ∀ q ∈ [(3, 0, 0), (0, 0, 5), (0, 1, 5), (0, 0, 0)],
      let x := { op 0 0 with ucount := BitVec.ofNat 64 q.2.1, descA := BitVec.ofNat 32 (q.2.2 <<< 15) }
      ∃ ch p, Fetches (trapAs (some x) (fun t => { t with state := BitVec.ofNat 2 q.1 }) id id) 0 2 ch ∧ ch.ctl.ypend = false ∧
        ch.trap.state = BitVec.ofNat 2 q.1 ∧ ch.trap.yreq = none ∧ ch.ev.yieldAns = none ∧ ch.seq.cur = some x ∧
        pushData ch [0] = .ok p ∧ (dRound x.descA = 5 ↔ q.2.2 = 5) := by
  intro q h
  simp only [List.mem_cons, List.not_mem_nil, or_false] at h
  rcases h with rfl | rfl | rfl | rfl <;> exact ⟨_, _, ⟨rfl, rfl⟩, rfl, rfl, rfl, rfl, rfl, rfl, by decide⟩

/-- Meets the clauses of OUT and OUTS that ask for DOZE, of an OUTS that the array blocks, and of the end of a stall for
DOZE. -/
theorem meets_FencesYieldsAndWaitsEndOnce_stalls :
    (∃ f, Fetches (stack [2]) 0 3 f ∧ f.ctl.ds = [2] ∧ f.ctl.repact = false ∧ ioAssigned (stack [2]).hub f 0x1CC0 = true ∧
      outBlocked f 0x1CC0 2 = false ∧ asksDoze 0x1CC0 2 = true) ∧
    (∃ f, Fetches (stack [0x1CC0, 2]) 0 1 f ∧ f.ctl.ds = [0x1CC0, 2] ∧ f.ctl.repact = false ∧
      ioAssigned (stack [0x1CC0, 2]).hub f 0x1CC0 = true ∧ outBlocked f 0x1CC0 2 = false ∧ asksDoze 0x1CC0 2 = true) ∧
    (let s := run fun ch => { ch with ctl := { ch.ctl with ds := [0x200, 3] }, seq := { ch.seq with queue := [0] } }
     ∃ f, Fetches s 0 1 f ∧ f.ctl.ds = [0x200, 3] ∧ f.ctl.repact = false ∧ ioAssigned s.hub f 0x200 = true ∧
      outBlocked f 0x200 3 = true) ∧
    (InWait (waiting .doze 0 []) 0 .doze 0 ∧ ((waiting .doze 0 []).chan 0).pwr.reqCtl = false) := by
  refine ⟨⟨_, ⟨rfl, rfl⟩, rfl, rfl, ?_, ?_, ?_⟩, ⟨_, ⟨rfl, rfl⟩, rfl, rfl, ?_, ?_, ?_⟩, ⟨_, ⟨rfl, rfl⟩, rfl, rfl, ?_, ?_⟩,
    ⟨⟨rfl, rfl⟩, ?_⟩⟩ <;> decide +kernel

/-! ### The array -/

/-- Channel 0 runs with the base routines in its routine table, these ops queued and `f` applied. -/
def ops (qs : List Quad) (f : Chan → Chan) : State := run fun ch => f { ch with
  seq := { ch.seq with queue := qs, rtab := [0, 48].filterMap fun r => (baseEntry r).map fun e => (r, e) } }

/-- An op word of a routine. -/
def opWord (r : Nat) : Quad := BitVec.ofNat 128 (r <<< 118)

/-- Meets the issue clauses of IssueAndQueueControl: a plane memory in retention, an ADMIT that passes, a routine without
a valid entry. -/
theorem meets_IssueAndQueueControl_issue :
    (let ch := (ops [opWord 0] fun ch => { ch with mem := { ch.mem with planeRet := true } }).chan 0
     mayIssue ch = true ∧ ch.seq.queue = [opWord 0] ∧ ch.mem.planeRet = true) ∧
    (∀ p ∈ [(0, none), (1023, some (1, 0))],
      let ch := (ops [opWord p.1] id).chan 0
      mayIssue ch = true ∧ ch.seq.queue = [opWord p.1] ∧ ch.mem.planeRet = false ∧
        issueFault (fetchRoutine { ch with mem := { ch.mem with waking := false } } (opWord p.1)) (opWord p.1) = p.2) := by
  decide +kernel

/-- Meets the clause of an op that a held range refuses (cause 0x0B). -/
theorem meets_IssueAndQueueControl_hold :
    let ch := (ops [opWord 48] fun ch => { ch with trap := { ch.trap with
      holds := Vector.replicate 4 (BitVec.ofNat 26 (4096 * 8192)) } }).chan 0
    mayIssue ch = true ∧ ch.mem.planeRet = false ∧
      issueFault (fetchRoutine { ch with mem := { ch.mem with waking := false } } (opWord 48)) (opWord 48) = some (0x0B, 0) := by
  decide +kernel

/-- Meets the clauses of GO and DROP: a head op that passes the checks, one that fails them, and no op. -/
theorem meets_IssueAndQueueControl_head :
    (∀ p ∈ [(0, none), (1023, some (1, 0))], let g := (ops [opWord p.1] id).chan 0
      mayIssue g = true ∧ g.seq.queue = [opWord p.1] ∧ issueFault (fetchRoutine g (opWord p.1)) (opWord p.1) = p.2) ∧
    ((ops [] id).chan 0).seq.queue = [] := by decide +kernel

/-- Meets the queue control clauses: issue stopped and not, a trap held and not. -/
theorem meets_IssueAndQueueControl_control :
    (∀ b ∈ [true, false], let ch := (ops [] fun ch => { ch with seq := { ch.seq with stop := b } }).chan 0
      chanRunning ch = true ∧ ch.seq.stop = b) ∧
    (∀ k ∈ [(2 : BitVec 2), 1], let ch := (ops [] fun ch => { ch with trap := { ch.trap with state := k } }).chan 0
      chanRunning ch = true ∧ ch.trap.state = k) := by decide +kernel

/-- Channel 0 runs an op of routine 600 whose one word, at address 0, is `w`. -/
def presents (w : Quad) (x : OpCtx) : State := run fun ch => { ch with
  seq := { ch.seq with cur := some x, ustore := [(0, w)] } }

/-- The op of those states, with a return address and LOOP counter 0 at `n`. -/
def op600 (n : BitVec 12) : OpCtx :=
  { op (opWord 600) 0 with stack := [5], ulc := (Vector.replicate 4 0).set 0 n }

/-- Meets SequencerCodesChooseTheNextWord for each SEQ code, with COND true, and false where COND decides. -/
theorem meets_SequencerCodesChooseTheNextWord :
    ∀ q ∈ (List.range 14).map (fun k => ((k, 0), 2)) ++ [((2, 1), 2), ((3, 1), 2), ((6, 0), 1), ((11, 1), 2), ((12, 1), 2)],
      let p := q.1
      let n : BitVec 12 := q.2
      let w : Quad := BitVec.ofNat 128 (p.1 <<< 124 ||| p.2 <<< 105)
      PresentsWord (presents w (op600 n)) 0 (op600 n) w ∧
        (let ch := fetchUstore (leaveRestore ((presents w (op600 n)).chan 0)) 0
         WordExecutes ch (op600 n) w ∧ wSeq w = p.1 ∧ wLdec w = false ∧ condTrue ch (op600 n) (wCond w) = (p.2 == 0)) := by
  unfold PresentsWord WordExecutes
  decide +kernel

/-- Meets DataPathFollowsTheTables: the last PE, planes in canonical form, and every write-enable and latch code occurs. -/
theorem meets_DataPathFollowsTheTables :
    1048575 < 1048576 ∧ sparseWf 0#1048576 (Chan.reset 0).arr.planes = true ∧
    (∀ k < 8, wWen (BitVec.ofNat 128 (k <<< 40)) = k ∧ wXshift (BitVec.ofNat 128 (k <<< 40)) = 0 ∧
      wLatch (BitVec.ofNat 128 (k <<< 37)) = k) := by decide +kernel

/-- Meets the ADMIT clauses of WaitsBoundariesAndSaves: words 1 and 2 of an ADMIT of 2, and of one of 0. -/
theorem meets_WaitsBoundariesAndSaves_admit :
    (let x := op 2 0; presenting ((presents 0 x).chan 0) = some x ∧ opRoutine x.word = 0 ∧
      (x.ucount + 1#64).toNat < max 1 (opScalar x.word).toNat) ∧
    (let x := { op 2 0 with ucount := 1 }; presenting ((presents 0 x).chan 0) = some x ∧
      max 1 (opScalar x.word).toNat ≤ (x.ucount + 1#64).toNat) ∧
    (let x := op 0 0; max 1 (opScalar x.word).toNat ≤ (x.ucount + 1#64).toNat) := by decide +kernel

/-- A WAIT word for GOR_READY. -/
def waitWord : Quad := BitVec.ofNat 128 (8 <<< 124 ||| 1 <<< 105)

/-- Channel 0 runs, its op waits at `w`, and no edge has a credit. -/
def blocked (w : Quad) : State := run fun ch => { ch with
  arr := { ch.arr with edgeCtl := 0x055, edges := Vector.replicate 4 { buf := [], outstanding := 64 } }
  seq := { ch.seq with cur := some (op600 1), ustore := [(0, w)], waiting := true } }

/-- Meets the clauses of waiting words: COND false, COND true after waiting, and the stall limit. -/
theorem meets_WaitsBoundariesAndSaves_wait :
    (let s := presents waitWord (op600 1)
     let f := fetchUstore (leaveRestore (s.chan 0)) 0
     PresentsWord s 0 (op600 1) waitWord ∧ wSeq waitWord = 8 ∧ rangeFault f (op600 1) waitWord = none ∧
       wordReady f (op600 1) waitWord = false) ∧
    (let w : Quad := BitVec.ofNat 128 (8 <<< 124)
     let s := run fun ch => { ch with seq := { ch.seq with cur := some (op600 1), ustore := [(0, w)], waiting := true } }
     PresentsWord s 0 (op600 1) w ∧ (s.chan 0).seq.waiting = true ∧ wSeq w = 8 ∧
       wordReady (s.chan 0) (op600 1) w = true ∧ WordExecutes (leaveRestore (s.chan 0)) (op600 1) w) ∧
    (let w : Quad := BitVec.ofNat 128 (1 <<< 10)
     let ch := (blocked w).chan 0
     ch.seq.waiting = true ∧ edgesMet ch (wordAt ch (opRoutine (op600 1).word) (op600 1).upc.toNat) = false ∧ ch.arr.stallLimit ≠ 0 ∧
       chanRunning ch = true) := by
  unfold PresentsWord WordExecutes
  decide +kernel

/-- A save under way that keeps no state and raises no trap, or does both. -/
def draining (b : Bool) : Drain := { cause := 6, sub := 0, ffield := 0, quiet := b, nosave := b, yield := false }

/-- A YIELD of the controller has been accepted. -/
def asked (t : Trap) : Trap := { t with yreq := some { ctl := true, mgmt := false, cycles := 3 } }

/-- Meets the clauses of a YIELD's boundary, without an op and with one, and of the end of a save. -/
theorem meets_WaitsBoundariesAndSaves_yield :
    (let ch := (trapAs none asked id id).chan 0
     ch.trap.yreq.isSome = true ∧ chanRunning ch = true ∧ ch.trap.drain = none ∧ captureDue ch = false ∧ ch.seq.cur = none) ∧
    (let ch := (run fun ch => { ch with seq := { ch.seq with cur := some (op600 1), ustore := [(0, 0)] }, trap := asked ch.trap }).chan 0
     chanRunning ch = true ∧ ch.trap.yreq = some { ctl := true, mgmt := false, cycles := 3 } ∧ captureDue ch = false ∧ opRoutine (op600 1).word ≠ 0 ∧ isBehav ch (opRoutine (op600 1).word) = false ∧
       rangeFault (leaveRestore ch) (op600 1) (wordAt ch (opRoutine (op600 1).word) 0) = none ∧
       eccFault (leaveRestore ch) (op600 1) (wordAt ch (opRoutine (op600 1).word) 0) = none) ∧
    (∀ b ∈ [true, false], let ch := (trapAs none (fun t => { t with drain := some (draining b) }) id id).chan 0
     ch.trap.drain = some (draining b) ∧ (draining b).nosave = b ∧ (draining b).quiet = b ∧ ch.lau.roots = [] ∧ ch.lau.gors = [] ∧
       ch.seq.badSig = 0 ∧ chanRunning ch = true) := by decide +kernel

/-- Meets TunsAreComparedAndRepaired: a differing tun 63 with a free and good spare, a corrected word, GUARDED mode. -/
theorem meets_TunsAreComparedAndRepaired :
    (let ch := (run id).chan 0
     chanRunning ch = true ∧ ch.seq.badSig = 0 ∧ ch.arr.tunMap.toList.getD (63 / 8) 8 = 8 ∧
       ch.arr.spareBad.getLsbD (63 / 8) = false ∧ ch.arr.marks = []) ∧
    (let ch := (run fun ch => { ch with arr := { ch.arr with writeback := [(7, 0)] } }).chan 0
     memoriesClocked ch = true ∧ ch.mem.planeRet = false ∧ tunIdle ch 0 = true ∧ ch.arr.writeback.find? (fun y => decide (tunOfWord y.2 = 0)) = some (7, 0)) ∧
    (let ch := (run fun ch => { ch with err := { ch.err with mode := 1 } }).chan 0
     frozen ch = false ∧ guarded ch = true) := by decide +kernel

/-- Channel 0 runs in GUARDED mode, or not, with planes 0 to 13 of tun 0 written and not read back, and a word to write back
or none. -/
def checking (on : Bool) (f : Chan → Chan) : State := run fun ch => f { ch with
  err := { ch.err with mode := if on then 1 else 0 }, arr := { ch.arr with verify := (List.range 14) ++ [4096 * 63] } }

/-- Meets the clauses of a read-back: one that takes twelve planes and meets a word that does not match, and each reason why
nothing is read back. -/
theorem meets_TunsAreComparedAndRepaired_verify :
    (∀ cur ∈ [none, some (op600 1)],
      let ch := (checking true fun ch => { ch with seq := { ch.seq with cur := cur, planeIdle := true } }).chan 0
      planeFree ch 0 = true ∧ verifyPending ch 0 = true ∧ backPending ch 0 = false ∧ ch.seq.cur = cur ∧
        ((ch.arr.verify.filter fun v => decide (v / 4096 = 0)).take 12) = List.range 12 ∧ tunOfWord (16384 * 11 % 16384) = 0 ∧
        16384 * 11 / 16384 ∈ List.range 12) ∧
    planeFree ((checking true fun ch => { ch with mem := { ch.mem with planeRet := true } }).chan 0) 0 = false ∧
    verifyPending ((checking false id).chan 0) 0 = false ∧ verifyPending ((checking true id).chan 0) 1 = false ∧
    backPending ((checking true fun ch => { ch with arr := { ch.arr with writeback := [(7, 0)] } }).chan 0) 0 = true := by
  decide +kernel

/-- Meets the clauses of a word that is written back, and of one whose column is mapped out, with the last spare left. -/
theorem meets_TunsAreComparedAndRepaired_column :
    ∀ n ∈ [0, 3, 4], let ch := (run fun ch => { ch with
        arr := { ch.arr with writeback := [(7, 0)], spareCols := Vector.replicate 72 n } }).chan 0
      planeFree ch 0 = true ∧ ch.arr.writeback.find? (fun y => decide (tunOfWord y.2 = 0)) = some (7, 0) ∧
        ch.arr.spareCols.toList.getD (9 * (0 / 8) + physPos ch (0 / 8) (0 % 8)) 0 = n := by decide +kernel

/-- Meets the clauses of the record of repairs: none to record, and one. -/
theorem meets_TunsAreComparedAndRepaired_record :
    repairsOf (Chan.reset 0) = recorded State.reset.hub 0 ∧
    repairsOf { Chan.reset 0 with mem := { ChanMem.reset with usedD := 1 } } ≠ recorded State.reset.hub 0 ∧
    (recordNow State.reset.hub).counter.toNat + 1 < 2 ^ 32 := by decide +kernel

/-- Channel 0 runs, perhaps an op, with one root request and one global OR of an age, destination 0 set to `d`. -/
def root (r : RootOp) (d : BitVec 17) (age : Nat) (cur : Option OpCtx) : State := run fun ch => { ch with
  seq := { ch.seq with cur := cur }
  lau := { ch.lau with
    roots := [{ tag := 63, op := r, age := age }], gors := [{ tag := 63, val := true, age := age }]
    xdest := (Vector.replicate 8 0).set 0 d, expect := 1 } }

/-- Meets RootEffectsTakePlaceInOrder for each kind of request, at its age and without an op, with no destination and with
the channel its own, and in GUARDED mode. -/
theorem meets_RootEffectsTakePlaceInOrder :
    (∀ (r : RootOp) (d : BitVec 17) (age : Nat) (cur : Option OpCtx),
      ((root r d age cur).chan 0).lau.roots = [{ tag := 63, op := r, age := age }] ∧
      ((root r d age cur).chan 0).lau.gors = [{ tag := 63, val := true, age := age }] ∧
      ((root r d age cur).chan 0).seq.cur = cur) ∧
    (∀ a ∈ [23, 24, 36], let ch := (root .merge 0 a (some (op600 1))).chan 0
     chanRunning ch = true ∧ comparing ch = false ∧ ch.lau.rxCount.toNat < ch.lau.expect.toNat ∧
       ch.lau.xdest.toList.all (fun e => !e.getLsbD 16) = true) ∧
    (let ch := (root .merge 0x10000 0 none).chan 0
     ch.lau.xdest.toList.filter (fun e => e.getLsbD 16) = [0x10000] ∧
       (0x10000 : BitVec 17).extractLsb' 0 16 = ch.keg.addr) ∧
    (let ch := (root (.xsend 8191 3) 0x10001 0 (some (op600 1))).chan 0
     ch.lau.xdest.toList.filter (fun e => e.getLsbD 16) = [0x10001] ∧
       (0x10001 : BitVec 17).extractLsb' 0 16 ≠ ch.keg.addr ∧ ch.seq.cur ≠ none) ∧
    (let ch := (run fun ch => { ch with err := { ch.err with mode := 1 } }).chan 0
     chanRunning ch = true ∧ comparing ch = false ∧ guarded ch = true) :=
  ⟨fun _ _ _ _ => ⟨rfl, rfl, rfl⟩, by decide +kernel, by decide +kernel, by decide +kernel, by decide +kernel⟩

/-! ### Memories, transfers and packets -/

/-- A transfer entry of queue pair 0 with these cells in this state. -/
def entry (cells : List Word) (st : EntryState) : Entry :=
  { tag := 0, q := 0, slot := 0, cells := cells, state := st, lost := false, acks := 0, refused := none
    own := false, covered := false, mark := 0, buf := [], retry := [{ word := 0, data := 5, mask := 15, win := 0, off := 0 }] }

/-- Channel 0 runs with one entry. -/
def moving (e : Entry) : State := run fun ch => { ch with rack := { ch.rack with entries := [e] }, fn := { ch.fn with bme := true } }

/-- Channel 0 runs with sparge of DMEM in a phase. -/
def sparging (phase : BitVec 3) (done : Nat) : State := run fun ch => { ch with mem := { ch.mem with
  spD := { ch.mem.spD with phase := phase, done := done }, spI := { ch.mem.spI with phase := phase, done := done }
  spP := { ch.mem.spP with phase := phase, done := done } } }

/-- Meets the scrub and retention clauses of MemoriesAreScrubbedAndRetained. -/
theorem meets_MemoriesAreScrubbedAndRetained :
    frozen ((run id).chan 0) = false ∧ chanRunning ((run id).chan 0) = true ∧ retReady ((run id).chan 0) = true ∧
    retReady ((presents 0 (op600 1)).chan 0) = false ∧
    chanRunning ((run fun ch => { ch with mem := { ch.mem with planeRet := true } }).chan 0) = true ∧
    usesImem (entry [1, 0, 0, 0, 0, 0, 0x33] .moving) = true ∧ memoriesClocked ((run id).chan 0) = true ∧
    hbmMark ((run id).chan 0) (2 ^ 29 - 1) = none ∧ 2 ^ 29 - 1 < 2 ^ 29 := by decide +kernel

/-- Meets the sparge clauses: the last region of each memory, and each phase. -/
theorem meets_MemoriesAreScrubbedAndRetained_sparge :
    (∀ mem < 3, spargeAllowed ((sparging 0 0).chan 0) mem = true ∧ (spOf ((sparging 0 0).chan 0) mem).phase = 0 ∧
      (BitVec.ofNat 13 (regionCount mem - 1)).toNat < regionCount mem) ∧
    (∀ p ∈ [(1, 0), (1, 63), (2, 0), (3, 1278), (3, 1279), (4, 0), (4, 63), (5, 0)], ∀ mem < 3, let ch := (sparging (BitVec.ofNat 3 p.1) p.2).chan 0
      spargeAllowed ch mem = true ∧ spargeIdle ch mem = true ∧ (spOf ch mem).found = [] ∧ (spOf ch mem).phase = BitVec.ofNat 3 p.1 ∧ (spOf ch mem).done = p.2 ∧
        (spOf ch mem).phase ≠ 0) ∧
    (∀ b ∈ [true, false], let ch := ((sparging 1 0).chan 0)
     let f := { ch with mem := { ch.mem with dmarks := if b then [{ word := 0, ue := true, pend := false }] else [] } }
     spargeAllowed f 0 = true ∧ spargeIdle f 0 = true ∧ markUe f.mem.dmarks (64 * (spOf f 0).region.toNat + (spOf f 0).done) = b) ∧
    (let ch := (run fun ch => { ch with mem := { ch.mem with spI := { ch.mem.spI with phase := 3, done := 1279, found := [3] } } }).chan 0
     spargeAllowed ch 1 = true ∧ spargeIdle ch 1 = true ∧ (spOf ch 1).found ≠ [] ∧ ch.mem.usedI < 8) ∧
    (let ch := (run fun ch => { ch with seq := { ch.seq with umarks := [{ tun := 71, addr := 0, flips := 2 }] } }).chan 0
     ch.seq.umarks.find? (fun x => decide (x.tun = 71 ∧ x.addr = 0)) = some { tun := 71, addr := 0, flips := 2 } ∧
       hamRead false (ustoreWord ch 0 ^^^ 2) = some (ustoreWord ch 0, true)) := by
  decide +kernel

/-- Channel 0 runs with queue pair 255 enabled over a ring of two entries in DMEM, one of them written. -/
def ring : State := run fun ch => setQp ch 255 fun p =>
  { p with enable := true, dmemRing := true, log2 := 1, sqdb := 1, tailS := 1, counted := 1, modTime := 3 }

/-- Meets QueuePairsFollowTheirRegisters: an idle pair, a good and a bad size, and doorbells 1 and 2 of a ring of two. -/
theorem meets_QueuePairsFollowTheirRegisters :
    (let ch := (run id).chan 0
     memoriesClocked ch = true ∧ (qpAt ch 255).enable = false ∧ qpActive ch 255 = false ∧ (qpAt ch 255).counted = 0 ∧
       (0x5 : Word).getLsbD 1 = false ∧ qpBase (qpAt ch 255) % 4096 = 0 ∧ (0x5 : Word).extractLsb' 2 4 ≠ 0 ∧
       (1 : Word).extractLsb' 2 4 = 0) ∧
    (let ch := ring.chan 0
     memoriesClocked ch = true ∧ (qpAt ch 255).enable = true ∧ ((1 : Word).extractLsb' 0 16).toNat < 2 ^ (qpAt ch 255).log2.toNat ∧
       2 ^ (qpAt ch 255).log2.toNat ≤ ((2 : Word).extractLsb' 0 16).toNat ∧
       (qpAt ch 255).counted ≠ 0 ∧ (qpAt ch 255).irqEn = false ∧ (qpAt ch 255).modTime ≠ 0) ∧
    (let ch := (run fun ch => setQp ch 255 fun p => { p with counted := 1, modTime := 3, irqEn := true }).chan 0
     (qpAt ch 255).counted ≠ 0 ∧ (qpAt ch 255).irqEn = true ∧ (qpAt ch 255).modTime ≠ 0) ∧
    arbiter ((run fun ch => setQp ch 0 fun p => { p with
      enable := true, dmemRing := true, prio := false, log2 := 1, sqdb := 1, tailS := 1 }).chan 0) = some 0 := by decide +kernel

/-- Meets the start clauses of RackingEntriesRunAndComplete, with a length of 0 and of one byte. -/
theorem meets_RackingEntriesRunAndComplete :
    (∀ cs ∈ [[0], [3], [1, 0, 0, 0, 0, 0, 0x33], [1, 1, 0, 0, 0, 0, 0x33], [2, 0, 0, 0, 0, 0, 0x30], [2, 1, 0, 0, 0, 0, 0x30]],
      let cells : List Word := cs.map (BitVec.ofNat 32)
      let s := moving (entry cells .fetched)
      memoriesClocked (s.chan 0) = true ∧ entryAt (s.chan 0) 0 = some (entry cells .fetched) ∧
        mayStart (s.chan 0) (entry cells .fetched) = true ∧ cOp cells = cs.headD 0 ∧ wordLen cells = cs.getD 1 0 ∧
        checkMill (s.chan 0).mill cells = false ∧ (s.chan 0).mem.imarks = [] ∧ (cOp cells = 1 → cSrc cells = 3) ∧
        (cOp cells = 1 ∨ cOp cells = 2 → cDst cells = 3)) := by decide +kernel

/-- Meets the clauses of entries that wait, have finished or time out. -/
theorem meets_RackingEntriesRunAndComplete_later :
    (let e := { entry [0] (.finished 0 0 0) with retry := [] }
     memoriesClocked ((moving e).chan 0) = true ∧ entryAt ((moving e).chan 0) 0 = some e ∧ postable ((moving e).chan 0) e = true) ∧
    (let e := entry [0] .reading; entryAt ((moving e).chan 0) 0 = some e ∧ e.buf = [] ∧
      e.retry = [{ word := 0, data := 5, mask := 15, win := 0, off := 0 }] ∧ (List.replicate 64 (0 : Byte)).length = 64) ∧
    (let e := entry [0] (.hostRead 8 64); entryAt ((moving e).chan 0) 0 = some e ∧ e.state = .hostRead 8 64) ∧
    (let e := { entry [0] .moving with acks := 1 }
     entryAt ((moving e).chan 0) 0 = some e ∧ e.acks ≠ 0 ∧ ((moving e).chan 0).rack.rtimeout ≠ 0) := by decide +kernel

/-- The cells of an entry: opcode, length, the two spaces, the two addresses, and a plane endpoint of eight planes, one row
and one block of columns. -/
def transfer (o len src dst sa da : Nat) : List Word :=
  [o, len, sa, 0, da, 0, src + 16 * dst, 0x8000, 0x02000400, 0x04030201].map (BitVec.ofNat 32)

/-- Meets the clauses of a COPY or FILL between byte-addressed spaces, to the host with Bus Master Enable 1 and 0, to planes,
and to another channel; and of a COPY from the host and from planes. -/
theorem meets_RackingEntriesRunAndComplete_moves :
    (∀ o ∈ [1, 2], ∀ src ∈ [1, 2, 3], ∀ dst ∈ [0, 1, 2, 3, 4, 6, 7], ∀ bme : Bool,
      let cs := transfer o 64 src dst 0xFFFC0 0x40
      let s := run fun ch => { ch with rack := { ch.rack with entries := [entry cs .fetched] }, fn := { ch.fn with bme := bme } }
      let ch := s.chan 0
      memoriesClocked ch = true ∧ entryAt ch 0 = some (entry cs .fetched) ∧ mayStart ch (entry cs .fetched) = true ∧
        wordLen cs = 64 ∧ checkMill ch.mill cs = false ∧ cOp cs = o ∧ cSrc cs = src ∧ cDst cs = dst ∧ cSrcAddr cs + 64 ≤ 0x100000 ∧
        cDstAddr cs / 512 = (cDstAddr cs + 64 - 1) / 512 ∧ ch.mem.imarks = [] ∧ ch.mem.dmarks = [] ∧ ch.hbm.marks = [] ∧
        Memory.wf ch.hbm.bytes = true ∧ Memory.wf ch.mem.dmem = true ∧ Memory.wf ch.mem.imem = true ∧
        (engineCtl ch).bme = bme ∧ throughPair ch = false ∧ (planeEnd (cellOf cs 7) (cellOf cs 8)).fmt = false ∧
        min 512 (128 * 2 ^ (engineCtl ch).maxPayload.toNat) ≠ 0 ∧
        cDstAddr cs / min 512 (128 * 2 ^ (engineCtl ch).maxPayload.toNat)
          = (cDstAddr cs + 64 - 1) / min 512 (128 * 2 ^ (engineCtl ch).maxPayload.toNat)) ∧
    (∀ src ∈ [0, 4], ∀ bme : Bool, let cs := transfer 1 64 src 1 0xFC0 0
      let s := run fun ch => { ch with rack := { ch.rack with entries := [entry cs .fetched] }, fn := { ch.fn with bme := bme } }
      mayStart (s.chan 0) (entry cs .fetched) = true ∧ wordLen cs = 64 ∧ cSrc cs = src ∧ cDst cs ≠ 0 ∧ mayRead s = true ∧
        checkMill (s.chan 0).mill cs = false ∧ (engineCtl (s.chan 0)).bme = bme ∧ throughPair (s.chan 0) = false) := by
  decide +kernel

/-- Meets the clause of host data that arrives whole for HBM. -/
theorem meets_RackingEntriesRunAndComplete_hostData :
    let e := entry (transfer 1 4 0 1 0 (2 ^ 32 - 4)) (.hostRead 0 4)
    let ch := (moving e).chan 0
    memoriesClocked ch = true ∧ entryAt ch 0 = some e ∧ e.state = .hostRead 0 (wordLen e.cells) ∧
      ([1, 2, 3, 4] : List Byte).length = wordLen e.cells ∧ ch.err.mode ≠ 2 ∧ cDst e.cells = 1 ∧ ch.hbm.marks = [] ∧
      Memory.wf ch.hbm.bytes = true := by decide

/-- A whole code-word part of plane 7 in tun 63. -/
def part : Staged :=
  { tun := 63, plane := 7, out := false, done := false, data := 0, mask := BitVec.allOnes 16384, tag := 0 }

/-- Meets the staged part and dropped word clauses. -/
theorem meets_RackingEntriesRunAndComplete_staged :
    (let ch := (run fun ch => { ch with arr := { ch.arr with staging := [part] } }).chan 0
     memoriesClocked ch = true ∧ planeFree ch 63 = true ∧ backPending ch 63 = false ∧ verifyPending ch 63 = false ∧
       nextPart ch 63 = some part ∧ part.out = false ∧ sparseWf 0#1048576 ch.arr.planes = true) ∧
    (let x : Posting := { q := 255, tag := none, words := [(0, 1), (1, 2)], count := false, err := false, ack := none }
     let ch := (run fun ch => { ch with rack := { ch.rack with posting := [x] } }).chan 0
     ch.rack.posting.find? (fun y => decide (y.q = 255)) = some x ∧ [((1 : Nat), (2 : Word))] ≠ []) := by decide +kernel

/-- The part's data lie within its mask. -/
theorem meets_RackingEntriesRunAndComplete_mask : placeTun part.tun part.data &&& ~~~(placeTun part.tun part.mask) = 0 := by
  decide +kernel

/-- A packet of a kind with a tag, from channel (0, 0, 0) to itself, with four bytes of payload at address 0. -/
def packet (kind tag : Nat) : Packet :=
  { hdr := mkHeader (Keg.reset 0) kind 1 false 0 tag 0 4 0 0 0 0, flits := [0x01020304] }

/-- Channel 0 runs, with inbound writes permitted or not, and these packets at every place of arrival. -/
def inbound (on : Half) (p : Packet) : State := run fun ch => { ch with rack := { ch.rack with
  inbound := on, inq := [p], images := [p], responses := [p], xtags := [(pTag p, pSrc p)] } }

/-- Meets InboundPacketsAreTakenAndAnswered: writes refused and taken, an image, a response, a refused notification. -/
theorem meets_InboundPacketsAreTakenAndAnswered :
    (∀ on ∈ [0, 3], let s := inbound (BitVec.ofNat 16 on) (packet 1 0)
      let f := wakeIdle (settleCredit { s.chan 0 with rack := { (s.chan 0).rack with inq := [] } } (packet 1 0))
      memoriesClocked (s.chan 0) = true ∧ (s.chan 0).err.mode ≠ 2 ∧ (s.chan 0).rack.inq = [packet 1 0] ∧
        pKind (packet 1 0) = 1 ∧ (hbmRefusal f (packet 1 0) = 0 ↔ on = 3) ∧ pNotify (packet 1 0) = false ∧
        (s.chan 0).hbm.marks = [] ∧ payloadBytes (packet 1 0) ≠ []) ∧
    (let s := inbound 0 (packet 3 0x800)
     (s.chan 0).rack.responses = [packet 3 0x800] ∧ 0x800 ≤ pTag (packet 3 0x800) ∧
       (s.chan 0).rack.xtags.find? (fun y => decide (y.1 = pTag (packet 3 0x800))
         && sameChannel (s.chan 0).keg y.2 (pSrc (packet 3 0x800))) = some (0x800, pSrc (packet 3 0x800))) := by decide +kernel

/-- A plane write of 64 byte elements: one row of one block of columns. -/
def planePacket : Packet :=
  { hdr := mkHeader (Keg.reset 0) 2 1 false 0 0 0 64 0 0x8000 0x02000400 0, flits := [1] }

/-- Meets the clauses of a plane write that is refused and of one that is taken. -/
theorem meets_InboundPacketsAreTakenAndAnswered_planes :
    (let p := packet 2 0
     let f := wakeIdle (settleCredit { (inbound 0 p).chan 0 with rack := { ((inbound 0 p).chan 0).rack with inq := [] } } p)
     pKind p = 2 ∧ planeRefusal f p ≠ 0) ∧
    (let p := planePacket
     let f := wakeIdle (settleCredit { (inbound 2 p).chan 0 with rack := { ((inbound 2 p).chan 0).rack with inq := [] } } p)
     pKind p = 2 ∧ planeRefusal f p = 0 ∧ (packetEnd p).fmt = false ∧ f.mem.planeRet = false) := by decide +kernel

/-- The parts that `planePacket` brings are some, and a plane write that starts or continues a transfer with a notification.
-/
theorem meets_InboundPacketsAreTakenAndAnswered_parts :
    (let p := planePacket
     let e := packetEnd p
     pNotify p = false ∧ pAddr p / epSize e = 0 ∧ (pAddr p + pBytes p) / epSize e = 64 ∧
       stageParts e (bytesNat (payloadBytes p) * 2 ^ (8 * pAddr p)) (epSize e) 0 64 (inboundKey p) false ≠ []) := by
  decide +kernel

/-- `planePacket` with FMT 1, through mill format 0. -/
def millPacket : Packet :=
  { hdr := mkHeader (Keg.reset 0) 2 1 false 0 0 0 64 0 0x01008000 0x02000400 0, flits := [1] }

/-- An image whose mill format 0 takes inbound byte elements of eight planes on one lane. -/
def formatImage : MillImage :=
  { id := 0, clk := Vector.replicate 4 1, rate := 0, ramCfg := Vector.replicate 64 4, cells := [], ram := []
    fmts := Vector.replicate 16 (3 + 8 <<< 32 + 8 <<< 48 + 1 <<< 64) }

/-- Meets the clause of a plane write that comes to the Mill. -/
theorem meets_InboundPacketsAreTakenAndAnswered_mill :
    let p := millPacket
    let ch := { (inbound 2 p).chan 0 with mill := { Mill.reset with state := .run, image := some formatImage } }
    let f := wakeIdle (settleCredit { ch with rack := { ch.rack with inq := [] } } p)
    let e := packetEnd p
    memoriesClocked ch = true ∧ pKind p = 2 ∧ e.fmt = true ∧ pAddr p / epSize e < (pAddr p + pBytes p) / epSize e ∧
      planeRefusal f p = 0 := by decide +kernel

/-- Meets the clause of the part that lets an answer go. -/
theorem meets_InboundPacketsAreTakenAndAnswered_staged :
    let p := planePacket
    let x : Staged := { tun := 63, plane := 7, out := false, done := false, data := 0, mask := BitVec.allOnes 16384, tag := inboundKey p }
    let ch := (run fun ch => { ch with
      arr := { ch.arr with staging := [x] }, rack := { ch.rack with held := [(p, 0)] } }).chan 0
    planeFree ch 63 = true ∧ backPending ch 63 = false ∧ verifyPending ch 63 = false ∧ nextPart ch 63 = some x ∧
      entryAt ch x.tag = none ∧ ch.mill.jobs = [] ∧ pNotify p = false := by decide +kernel

/-- A packet of an HBM_WRITE with a notification, at byte 0 or after it. -/
def notifying (a : Nat) : Packet :=
  { hdr := mkHeader (Keg.reset 0) 1 1 true 0 5 a 4 0 0 0 7, flits := [1] }

/-- Meets the clauses of a transfer with a notification: its first packet, taken and refused, and a later one that is
refused. -/
theorem meets_InboundPacketsAreTakenAndAnswered_notify :
    (let p := notifying 0
     let ch := setQp ((inbound 0x305 p).chan 0) 3 fun q => { q with enable := true }
     let f := wakeIdle (settleCredit { ch with rack := { ch.rack with inq := [] } } p)
     pKind p = 1 ∧ hbmRefusal f p = 0 ∧ ch.hbm.marks = [] ∧ payloadBytes p ≠ [] ∧ pNotify p = true ∧
       ch.rack.notes.find? (noteOf p) = none) ∧
    (let p := notifying 4
     let n : Note := { cid := 7, sqid := 0, src := pSrc p, bytes := 4, pkt := notifying 0, refused := false }
     let ch := (inbound 0x300 p).chan 0
     let f := wakeIdle (settleCredit { ch with rack := { ch.rack with inq := [], notes := [n] } } p)
     pKind p = 1 ∧ hbmRefusal f p ≠ 0 ∧ pNotify p = true ∧ f.rack.notes.find? (noteOf p) = some n ∧ n.refused = false) := by
  decide +kernel

/-- A notification of an HBM_WRITE of `n` bytes at address 0, all of them visible. -/
def note (n : Nat) : Note :=
  { cid := 7, sqid := 1, src := 0, bytes := n, refused := false
    pkt := { hdr := mkHeader (Keg.reset 0) 1 1 true 0 5 0 n 0 0 0 0, flits := [] } }

/-- Channel 0 runs with a notification for queue pair 3, whose ring is in DMEM, in host memory or absent. -/
def noted (n : Note) (on dmem : Bool) : State := run fun ch => setQp { ch with
    fn := { ch.fn with bme := true }, rack := { ch.rack with inbound := 0x304, notes := [n] } } 3 fun p =>
  { p with enable := on, dmemRing := dmem, log2 := 2, cqTail := 3, headS := 3 }

/-- Meets the clauses of a notification: refused, and written at the end of a ring of four in DMEM and in host memory; its
transfer ends short of a 512-byte boundary, or on one and the command says so. -/
theorem meets_InboundPacketsAreTakenAndAnswered_note :
    (∀ p ∈ [(false, false), (true, true), (true, false)], ∀ k ∈ [(4, false), (512, true)],
      let n := note k.1
      let ch := (noted n p.1 p.2).chan 0
      memoriesClocked ch = true ∧ ch.err.mode ≠ 2 ∧ ch.rack.notes.find? (noteWhole ch k.2) = some n ∧
        noteRefused ch n.pkt = !p.1 ∧ notifyQp ch = 3 ∧ reserved ch 3 + 2 ≤ qpDepth (qpAt ch 3) ∧
        (qpAt ch 3).dmemRing = p.2 ∧ (engineCtl ch).bme = true) := by decide +kernel

/-- Meets RegisterWritesTakeEffect: an idle array, empty stacks and filled ones, and the ends of each field. -/
theorem meets_RegisterWritesTakeEffect :
    (let ch := (stack [1, 2]).chan 0
     chanRunning ch = true ∧ arrayEmpty ch = true ∧ fmtWritable ch = true ∧ lauWritable ch = true ∧ ch.ctl.rs = [] ∧
       Memory.wf ch.mem.dmem = true) ∧
    ((stack []).chan 0).ctl.ds = [] ∧
    (let ch := (ctlAs fun t => { t with ds := [1, 2], dsp := 0xFFFF8, dspLimit := 0x100000 }).chan 0
     ch.ctl.dsp.toNat % 4 = 0 ∧ ch.ctl.dsp.toNat + 4 * ch.ctl.ds.length ≤ min ch.ctl.dspLimit.toNat 0x100000) ∧
    (0xC0 : Word).extractLsb' 6 2 = 3 ∧ (0xAA : Word).extractLsb' 6 2 ≠ 3 ∧ (0x4F : Word).extractLsb' 4 3 = 4 ∧
    5 ≤ ((0x50 : Word).extractLsb' 4 3).toNat := by decide +kernel

/-- The machine with aux and main power, start at a step, PERST_N released and the link up, and channel 0 running. -/
def served (step : Nat) (f : Chan → Chan) : State :=
  { run f with hub := { State.reset.hub with
      boot := { State.reset.hub.boot with step := step }
      link := { speed := 6, width := 16, reversed := false, flit := true }
      supply := { State.reset.hub.supply with aux := true, main := true, on := enableRails auxRails, perst := false, bypass := .opened } } }

/-- Meets the clauses of the mailboxes and of an edge slot. -/
theorem meets_RegisterWritesTakeEffect_host :
    (let s := served 9 fun ch => { ch with fn := { ch.fn with mse := true } }
     chanRunning (s.chan 0) = true ∧ linkUp s.hub = true ∧ decodes (s.chan 0).fn = true ∧ s.hub.supply.rails = true ∧
       (s.chan 0).err.mode ≠ 2 ∧ managed s.hub = true ∧ restartable s.hub = true) ∧
    (let l := { Link.reset with rxSlots := [{ deep := false, lines := 1 }] }
     let ch := (run fun ch => { ch with keg := { ch.keg with links := Vector.replicate 6 l } }).chan 0
     (linkAt ch (edgePort 3)).rxSlots = l.rxSlots ∧ (edgeAt ch 3).buf.length < 64) := by decide +kernel

/-! ### The Mill -/

/-- An image whose block RAMs have parity and whose clock trees run from the channel clock. -/
def image : MillImage :=
  { id := 0, clk := Vector.replicate 4 1, rate := 0, ramCfg := Vector.replicate 64 4, fmts := Vector.replicate 16 0
    cells := [], ram := [] }

/-- Channel 0 runs and its Mill is in RUN. -/
def milling (f : Mill → Mill) : State := run fun ch => { ch with
  mill := f { ch.mill with state := .run, loaded := some image, image := some image } }

/-- Channel 0 of a module that starts: steps 5 to 7 of it have ended. -/
def milled (ks : List Container) : State :=
  let s := served 5 fun ch => { ch with cstate := .starting }
  { s with hub := { s.hub with loaded := 1, boot := { s.hub.boot with slot := some false, containers := ks } } }

/-- A Mill container for channel 0 that failed the check of its generation, as its flash device holds it. -/
def millContainer : Container :=
  { index := 0, kind := 6, gen := 0, target := 1, offset := 0x1000, length := 0, fail := 3, digest := Config.sha384 [] }

/-- Meets the load clauses of MillLoadsRunsAndHalts: no container, and one that fails with FAILCODE 0. -/
theorem meets_MillLoadsRunsAndHalts_load :
    (∀ ks ∈ [[], [millContainer]], let s := milled ks
      restartable s.hub = true ∧ (s.chan 0).cstate = .starting ∧ maskAt s.hub.loaded 0 = true ∧
        maskAt s.hub.milled 0 = false ∧ s.hub.boot.slot = some false) ∧
    forChan (milled []).hub.boot.containers 6 0 = none ∧
    forChan (milled [millContainer]).hub.boot.containers 6 0 = some millContainer ∧
    sameDigest (flashOf (milled [millContainer]).hub false) millContainer = true ∧
    millPayload (milled [millContainer]).hub (flashOf (milled [millContainer]).hub false) millContainer = .error 0 := by
  refine ⟨?_, rfl, rfl, decide_eq_true rfl, rfl⟩
  intro ks h
  simp only [List.mem_cons, List.not_mem_nil, or_false] at h
  rcases h with rfl | rfl <;> decide +kernel

/-- A Mill container for channel 0 that passed its checks. -/
def goodMill : Container :=
  { index := 0, kind := 6, gen := 0, target := 1, offset := 0x1000, length := 0, fail := 0, digest := Config.sha384 [] }

/-- Meets the clause of an image that loads, wherever the payload passes R301: whether it does rests on the free
cryptography of log 72. -/
theorem meets_MillLoadsRunsAndHalts_image (i : MillImage) :
    let s := milled [goodMill]
    millPayload s.hub (flashOf s.hub false) goodMill = .ok i →
    restartable s.hub = true ∧ (s.chan 0).cstate = .starting ∧ maskAt s.hub.loaded 0 = true ∧
      maskAt s.hub.milled 0 = false ∧ s.hub.boot.slot = some false ∧ forChan s.hub.boot.containers 6 0 = some goodMill ∧
      sameDigest (flashOf s.hub false) goodMill = true := by
  intro s _
  exact ⟨by decide, by decide, by decide, by decide, rfl, rfl, decide_eq_true rfl⟩

/-- Meets the clauses of a Mill that runs: a good last frame, a bad first one, a RAM with parity, events and clock trees. -/
theorem meets_MillLoadsRunsAndHalts :
    (let ch := (milling fun m => { m with scrubAt := 2048 }).chan 0
     millRuns ch = true ∧ frameGood ch.mill ch.mill.scrubAt = true ∧ (ramCfgOf ch.mill 63).getLsbD 2 = true ∧
       treeRuns ch ((ramCfgOf ch.mill 63).extractLsb' 0 2).toNat = true ∧ treeRuns ch (eventTree ch.mill 15) = true ∧
       memoriesClocked ch = true ∧ frozen ch = false ∧ treeRuns ch 3 = true ∧ parityBad ch.mill (lanesNow ch.mill) 3 = false) ∧
    (let ch := (milling fun m => { m with ram := [(0, 1)] }).chan 0
     treeRuns ch 0 = true ∧ parityBad ch.mill (lanesNow ch.mill) 0 = true) ∧
    (let ch := (milling fun m => { m with cfg := [(0, 1)] }).chan 0
     millRuns ch = true ∧ frameGood ch.mill ch.mill.scrubAt = false) ∧
    (let ch := (milling fun m => { m with lock := true }).chan 0; ch.cstate = .run ∧ ch.mill.lock = true) := by
  decide +kernel

/-- A result that is due, and one that is not, with an element on lane 0 of engine 0. -/
def due (n : Nat) : Flight := { engine := 0, lane := 0, elem := 2, left := n }

/-- A job of one element at engine 0 and one in flight. -/
def atEngine (n : Nat) : MillJob :=
  { key := 1, lo := 0, out := false, fmt := 0, width := 8, esize := 1, todo := #v[[(0, 0x55)], [], [], []], flight := [due n]
    words := 0 }

/-- Meets the clauses of an edge: the tap transmitter off, on and inverted, with the PRBS check, on a tree that runs and on
one that does not, with a job at the engines. -/
theorem meets_MillLoadsRunsAndHalts_edge :
    (∀ v ∈ [0, 1, 5, 0x41], let ch := (milling fun m => { m with tapCtl := BitVec.ofNat 7 v, jobs := [atEngine 1] }).chan 0
      millRuns ch = true ∧ treeRuns ch 0 = true ∧ ch.mill.tapCtl.getLsbD 5 = false ∧
        ch.mill.tapCtl.getLsbD 0 = decide (v ≠ 0) ∧ ch.mill.tapCtl.getLsbD 2 = decide (v = 5) ∧
        ch.mill.tapCtl.getLsbD 6 = decide (v = 0x41) ∧
        parityBad { ch.mill with rx := rxWord ch.mill 3 }
          (lanesNow { ch.mill with rx := rxWord ch.mill 3 }) 0 = false ∧ jobDone (atEngine 1) = false) ∧
    (let ch := (milling fun m => { m with image := some { image with clk := #v[0, 0, 0, 0] } }).chan 0
     millRuns ch = true ∧ treeRuns ch 0 = false) := by
  decide +kernel

/-- Meets the clauses of an element in flight: a lane whose driver gives 1 in bit 0, when the result is due and before. -/
theorem meets_MillLoadsRunsAndHalts_flight :
    (∀ n ∈ [0, 1], due n ∈ (atEngine n).flight ∧ (due n).left = n) ∧
    (let m := { ((milling id).chan 0).mill with cfg := [(512, BitVec.ofNat 256 (2 ^ 199 + 2 ^ 204))], ffs := 1#32768 <<< 512 }
     (laneResult m 0 0).testBit 0 = true) := by
  decide +kernel

/-! ### Keg ports, time and power -/

/-- The bypass is open and channel 0 runs with every port, and its link, as given. -/
def ported (p : Port) (l : Link) : State := served 9 fun ch => { ch with
  keg := { ch.keg with ports := Vector.replicate 6 p, links := Vector.replicate 6 l } }

/-- A negotiation message from an address with the versions and the good lanes at each rate. -/
def message (addr : Half) (lo hi : BitVec 4) (good : Vector (BitVec 5) 4) : NegMsg :=
  { addr := addr, session := 7, verLo := lo, verHi := hi, maxRate := 0, maxLanes := 0, fecOffOk := false, cstate := 0
    hops := 0, good := good }

/-- Meets the negotiation clauses of KegPortsNegotiateAndCarry: no good lane, versions out of range, an expected and an
unexpected partner, and the lane counts of the table. -/
theorem meets_KegPortsNegotiateAndCarry_negotiate :
    (let s := ported Port.reset Link.reset
     s.hub.supply.bypass = .opened ∧ frozen (s.chan 0) = false ∧ (portAt (s.chan 0) 5).state = .down ∧
       (portAt (s.chan 0) 5).enable = true) ∧
    (let q := { Port.reset with state := .negotiating, psession := some 1 }
     let ch := (ported q Link.reset).chan 0
     let cnt := fun (m : NegMsg) (k : Nat) => ((List.range 5).filter fun i => (m.good.toList.getD k 0).getLsbD i).length
     (portAt ch 5).state = .negotiating ∧ (portAt ch 5).psession.isSome = true ∧ ch.cstate ≠ .doze ∧
       q.maxRate = 0 ∧ q.maxLanes = 0 ∧
       cnt (message 0 1 1 #v[0, 0, 0, 0]) 3 = 0 ∧ 1 < (message 0 2 2 #v[0, 0, 0, 1]).verLo.toNat ∧
       (message 0 0 0 #v[0, 0, 0, 1]).verHi.toNat < 1 ∧ cnt (message 0 1 1 #v[31, 0, 0, 1]) 3 ≠ 0 ∧
       cnt (message 0 1 1 #v[31, 0, 0, 1]) 0 = 5 ∧ cnt (message 0 1 1 #v[15, 0, 0, 1]) 0 = 4 ∧
       (cnt (message 0 1 1 #v[7, 31, 0, 1]) 0 = 3 ∧ cnt (message 0 1 1 #v[7, 31, 0, 1]) 1 = 5) ∧
       (cnt (message 0 1 1 #v[3, 3, 0, 1]) 0 = 2 ∧ cnt (message 0 1 1 #v[3, 3, 0, 1]) 1 = 2) ∧
       cnt (message 0 1 1 #v[0, 0, 30, 1]) 2 = 4) := by decide +kernel

/-- Meets the clause of an interior link: both ends negotiate, and each is the other's expected partner. -/
theorem meets_KegPortsNegotiateAndCarry_interior :
    let q := { Port.reset with state := .negotiating }
    let s := (ported q Link.reset).setChan 1 { Chan.reset 1 with cstate := .run, keg := { Keg.reset 1 with ports := Vector.replicate 6 q } }
    s.hub.supply.bypass = .opened ∧ (s.chan 0).err.mode ≠ 2 ∧ interiorPeer 0 1 = some (1, 0) ∧
      (portAt (s.chan 0) 1).state = .negotiating ∧ (portAt (s.chan 1) 0).state = .negotiating ∧
      (message 0 1 1 #v[0, 0, 0, 1]).good[3] ≠ 0 ∧
      samePlace (s.chan 0).keg (s.chan 1).keg.own (expectedPartner (s.chan 0).keg 1) = true ∧
      samePlace (s.chan 1).keg (s.chan 0).keg.own (expectedPartner (s.chan 1).keg 0) = true := by decide

/-- Meets the clause of a frame on an interior link: the next one in sequence, on its way from channel 1. -/
theorem meets_KegPortsNegotiateAndCarry_wire :
    let g := frame 0 []
    let s := (ported { Port.reset with state := .up } Link.reset).setChan 1 { Chan.reset 1 with
      keg := { Keg.reset 1 with links := Vector.replicate 6 { Link.reset with wire := [g] } } }
    interiorPeer 0 1 = some (1, 0) ∧ (linkAt (s.chan 1) 0).wire = [g] ∧ (g.decoded = true ∧ frameKind g = 0 ∧
      crcOk g = true ∧ (headOf g).seq = (linkAt (s.chan 0) 1).expected) ∧ (portAt (s.chan 0) 1).low = none :=
  ⟨by decide, rfl, frame_reads 0, rfl⟩

/-- The three outcomes of a partner's address occur. -/
theorem meets_KegPortsNegotiateAndCarry_partners :
    let k := Keg.reset 0
    samePlace k (expectedPartner k 0) (expectedPartner k 0) = true ∧
      (∃ a : Half, samePlace k a (expectedPartner k 0) = false ∧ sameLine k 0 a = true) ∧
      (∃ a : Half, samePlace k a (expectedPartner k 0) = false ∧ sameLine k 0 a = false) := by
  exact ⟨by decide, ⟨0x0800, by decide, by decide⟩, ⟨0x0010, by decide, by decide⟩⟩

/-- A block of zeros. -/
def blank : Frame := { control := 0, decoded := true, flits := Vector.replicate 10 0 }

/-- Meets the lane, frame and packet clauses: a spare held and none, frames expected, ahead, far ahead and behind. -/
theorem meets_KegPortsNegotiateAndCarry_carry :
    (∀ sp ∈ [16, 0], let q := { Port.reset with state := .up, active := 15, spare := BitVec.ofNat 5 sp }
      q.active.getLsbD 3 = true ∧ q.spare &&& q.active = 0 ∧ q.spareUsed = false ∧ q.enable = true ∧
        (q.spare = 0 ↔ sp = 0)) ∧
    (let l := { Link.reset with rxPackets := [packet 1 0], unsent := [blank] }
     let ch := (ported { Port.reset with state := .up } l).chan 0
     (portAt ch 5).state = .up ∧ (portAt ch 5).low = none ∧ interiorPeer 0 5 = none ∧ memoriesClocked ch = true ∧ (linkAt ch 5).rxPackets = [packet 1 0] ∧
       (linkAt ch 5).unsent = [blank] ∧ ch.keg.downLimit ≠ 0) ∧
    (Link.reset.unsent = [] ∧ Link.reset.replay.length < 1024) ∧
    (let ch := (ported { Port.reset with state := .down } Link.reset).chan 0
     (portAt ch 5).state ≠ .up ∧ (portAt ch 5).state ≠ .miswired ∧ (portAt ch 5).low = none) := by decide +kernel

/-- Meets the clauses of a block received: sound frames at each end of the distances, a CRC that fails, and each kind. -/
theorem meets_KegPortsNegotiateAndCarry_blocks :
    (∀ n ∈ [0, 1, 4095, 4096, 61440, 61441], let f := frame (BitVec.ofNat 16 n) []
      (f.decoded = true ∧ frameKind f = 0 ∧ crcOk f = true) ∧ ((headOf f).seq - Link.reset.expected).toNat = n) ∧
    (∃ f : Frame, f.decoded = true ∧ frameKind f = 0 ∧ crcOk f = false) ∧
    (∀ k ∈ [1, 2, 3], frameKind { frame 0 [] with control := BitVec.ofNat 20 (k * 2 ^ 18) } = k) := by
  refine ⟨fun n h => ?_, ⟨_, rfl, rfl, crcOk_broken (frame 0 []) (crc32c (crcBytes (frame 0 [])) + 1) ?_⟩, fun k h => ?_⟩
  · have g := frame_reads (BitVec.ofNat 16 n)
    refine ⟨⟨g.1, g.2.1, g.2.2.1⟩, ?_⟩
    rw [g.2.2.2]
    clear g
    revert n
    decide
  · intro h
    simp at h
  · show (BitVec.ofNat 20 (k * 2 ^ 18)).toNat / 2 ^ 18 = k
    revert k
    decide

/-- Meets the clause of a management packet that has come over keg. -/
theorem meets_KegPortsNegotiateAndCarry_mgmt :
    let s := served 9 fun ch => { ch with rack := { ch.rack with mgmt := [packet 5 0] } }
    s.hub.supply.bypass = .opened ∧ (s.chan 0).err.mode ≠ 2 ∧ (s.chan 0).rack.mgmt = [packet 5 0] ∧
      (s.chan 1).rack.mgmt = [] := by decide +kernel

/-- The module with aux power, a time, and channel 0 with the compare units and the wait as given. -/
def timed (tb : TimeBase) (f : Chan → Chan) : State :=
  { served 9 f with hub := { (served 9 f).hub with timebase := tb } }

/-- Meets the time clauses of TimeComparesAndDozeWork: a root and another module, a period that has ended and one that has
not, at each rate, and the units: one that matches and one that does not. -/
theorem meets_TimeComparesAndDozeWork :
    (timed TimeBase.reset id).hub.supply.aux = true ∧ isRoot (timed TimeBase.reset id).hub = true ∧
    (let s := timed TimeBase.reset id
     isRoot { s.hub with boot := { s.hub.boot with config := { s.hub.boot.config with tbRoot := 1 } } } = false) ∧
    (∀ r ∈ [Rate.nominal, .fast, .slow], ∀ n ∈ [0, 9999, 10000], let t := { TimeBase.reset with rate := r, since := n }
      (timed t id).hub.timebase.rate = r ∧ (timed t id).hub.timebase.since = n) ∧
    (let ch := (timed TimeBase.reset fun ch => { ch with pwr := { ch.pwr with cmp0 := 1, cmp1 := 0x80000001, arm0 := true } }).chan 0
     chanRunning ch = true ∧ unitsRun ch = true ∧ armOf ch 0 = true ∧ 2 ^ 31 ≤ (0 - ch.pwr.cmp0).toNat ∧
       (0 - ch.pwr.cmp1).toNat < 2 ^ 31 ∧ ch.pwr.tbWake = false) := by decide +kernel

/-- Meets the clause of a unit that fires as it is armed, in a pair of which one asks for DOZE. -/
theorem meets_TimeComparesAndDozeWork_arm :
    let waker := fun (ch : Chan) => { ch with
      cstate := .run, err := { ch.err with mode := 2 }, pwr := { ch.pwr with tbWake := true, reqHost := true } }
    let s := (timed TimeBase.reset waker).setChan 1 (waker (Chan.reset 1))
    chanRunning (s.chan 0) = true ∧ s.hub.timebase.count.setWidth 32 - (s.chan 0).pwr.cmp0 = 0 ∧
      (s.chan 0).pwr.tbWake = true ∧ (s.chan 0).pwr.woken = false ∧ pairOf s 0 = [0, 1] ∧
      ∀ d ∈ pairOf s 0, (s.chan d).cstate ≠ .doze ∧ dozeAsked (s.chan d) = true := by decide +kernel

/-- The module at a count, a neighbour of the root whose answer 5,000 it has heard, locked or not. -/
def steered (n : Nat) (b : Bool) : State :=
  let s := ported { Port.reset with state := .up } { Link.reset with heard := some 5000 }
  let s := s.setChan 0 { s.chan 0 with keg := { (s.chan 0).keg with nxm1 := 1 } }
  { s with hub := { s.hub with
      timebase := { TimeBase.reset with count := BitVec.ofNat 64 n, since := 10000, locked := b }
      boot := { s.hub.boot with config := { s.hub.boot.config with addr := 0x100 } } } }

/-- The root at a count, which has heard the answer 5,000. -/
def rooted (n : Nat) : State :=
  let s := ported { Port.reset with state := .up } { Link.reset with heard := some 5000 }
  { s with hub := { s.hub with timebase := { TimeBase.reset with count := BitVec.ofNat 64 n, since := 10000 } } }

/-- Meets the clauses of a parent's answer: the root within its 10 ms and after them; another module at its first lock, and
once locked at 1,000 and 1,001 ns on either side of the target. -/
theorem meets_TimeComparesAndDozeWork_heard :
    (∀ n ∈ [10000000, 10000001], let s := rooted n
      let u := (askAgain (endPeriod s)).hub.timebase
      s.hub.supply.aux = true ∧ isRoot s.hub = true ∧ heardOf s = some 5000 ∧ u.count.toNat = n) ∧
    (∀ p ∈ [(6000, true, true), (4000, true, true), (6001, true, false), (3999, true, false), (5000, false, true)],
      let s := steered p.1 p.2.1
      let u := (askAgain (endPeriod s)).hub.timebase
      s.hub.supply.aux = true ∧ isRoot s.hub = false ∧ heardOf s = some 5000 ∧ s.hub.timebase.locked = p.2.1 ∧
        (decide (u.count.toNat ≤ 5000 + 1000) && decide (5000 ≤ u.count.toNat + 1000)) = p.2.2) ∧
    (timed TimeBase.reset id).hub.supply.aux = true ∧ heardOf (timed TimeBase.reset id) = none := by decide +kernel

/-- Meets the IDLE and DOZE clauses: waiting and running, and latch planes that read well and one that does not. -/
theorem meets_TimeComparesAndDozeWork_doze :
    (let ch := (served 9 fun ch => { ch with pwr := { ch.pwr with reqHost := true }
                                             ev := { ch.ev with wait := some { kind := .wfi, len := 2 } } }).chan 0
     dozeAsked ch = true ∧ dozeReady ch = true ∧ ch.err.mode ≠ 2 ∧ ch.cstate ≠ .doze ∧ chanRunning ch = true ∧
       ch.pwr.autoIdle = true ∧ ch.ev.wait = some { kind := .wfi, len := 2 } ∧ wfiEvent ch = false ∧ ch.seq.queue = [] ∧
       ch.seq.cur = none ∧ ch.rack.inq = [] ∧ ch.rack.images = [] ∧ ch.rack.responses = [] ∧
       ctlGoes ch = false ∧ ch.ev.wait ≠ none ∧ sparseWf 0#1048576 ch.arr.planes = true) ∧
    (let ch := (served 9 id).chan 0; ctlGoes ch = true ∧ ch.ev.wait = none) ∧
    (∀ k ∈ [CState.doze, .idle], let ch := (served 9 fun ch => { ch with
        cstate := k, pwr := { ch.pwr with tbWake := true, arm1 := true } }).chan 0
      ch.cstate = k ∧ frozen ch = false ∧ ch.pwr.tbWake = true ∧ armOf ch 1 = true ∧ unitsRun ch = true ∧
        ch.err.mode ≠ 2 ∧ ∀ k < 4, planeUes ch (4064 + k) = []) ∧
    (let ch := (served 9 fun ch => { ch with
        cstate := .doze, arr := { ch.arr with marks := [{ plane := 4066, word := 9, ue := true }] } }).chan 0
     ch.cstate = .doze ∧ ch.err.mode ≠ 2 ∧ planeUes ch 4066 ≠ []) ∧
    (∀ w ∈ [some { kind := WaitKind.wfi, len := 2 }, none], let ch := (served 9 fun ch => { ch with
        cstate := .idle, ev := { ch.ev with wait := w } }).chan 0
      ch.cstate = .idle ∧ frozen ch = false ∧ idleHolds ch = w.isSome) := by
  decide +kernel

/-! ### Supplies, start and the host port -/

/-- The machine with its hub as `f` leaves the hub of a served one, channel 0 in a state of operation. -/
def placed (k : CState) (f : Hub → Hub) : State :=
  let s := served 9 fun ch => { ch with cstate := k }
  { s with hub := f s.hub }

/-- The supplies of a hub. -/
def supplied (f : Supply → Supply) (h : Hub) : Hub := { h with supply := f h.supply }

/-- Meets the supply clauses of SuppliesStartAndRestart. -/
theorem meets_SuppliesStartAndRestart_supplies :
    (let h := State.reset.hub
     h.supply.aux = false ∧ h.supply.lidOpen = false ∧ h.returnDue = false ∧ lcState h.fuses ≠ 4) ∧
    (let p := (placed .run id).hub.supply
     p.aux = true ∧ p.main = true ∧ p.rails = true ∧ p.input = true) ∧
    (let p := (placed .starting (supplied fun p => { p with main := false, on := auxRails })).hub
     p.supply.input = true ∧ p.supply.aux = true ∧ 3 ≤ p.boot.step ∧ p.supply.auxOnly = false ∧ p.supply.rails = false ∧
       p.supply.fatal = false ∧ p.supply.tampered = false) ∧
    (portUp (placed .run id).hub = true ∧ (placed .run id).hub.supply.rails = true) ∧
    (let h := (placed .starting (supplied fun p => { p with on := auxRails, auxOnly := true })).hub
     portUp h = true ∧ 3 ≤ h.boot.step ∧ h.supply.main = true ∧ h.supply.input = true ∧ h.supply.rails = false ∧
       h.supply.fatal = false ∧ h.supply.tampered = false) := by decide

/-- A channel in start that is held, that has a slot and does not train, and that has none. -/
theorem meets_SuppliesStartAndRestart_start :
    (∀ hs ∈ [1, 0], let s := placed .starting fun h => { h with
        held := BitVec.ofNat 16 hs, boot := { h.boot with step := 4, slot := some true } }
      mayLeaveReset s.hub 0 (s.chan 0) = true ∧ isHeld s.hub 0 = decide (hs = 1) ∧ s.hub.boot.slot = some true) ∧
    (let s := placed .fenced fun h => { h with milled := 0xFFFE, boot := { h.boot with step := 4 } }
     restartable s.hub = true ∧ 4 ≤ s.hub.boot.step ∧ allIn s s.hub.milled = true) ∧
    (let s := placed .starting fun h => { h with loaded := 1, milled := 1 }
     restartable s.hub = true ∧ (s.chan 0).cstate = .starting ∧ maskAt s.hub.loaded 0 = true ∧
       maskAt s.hub.milled 0 = true ∧ s.hub.supply.bypass = .opened) ∧
    (let s := placed .run id
     restartable s.hub = true ∧ (s.chan 0).err.mode ≠ 2 ∧ isHeld s.hub 0 = false) := by decide

/-- A controller firmware container for channel 0. -/
def firmwareContainer : Container :=
  { index := 0, kind := 5, gen := 0, target := 1, offset := 0x1000, length := 0, fail := 0, digest := Config.sha384 [] }

/-- Meets the clause of a channel that leaves reset with its firmware, wherever the container authenticates and the slot
has a microstore: whether they do rests on the free cryptography of log 72. -/
theorem meets_SuppliesStartAndRestart_load (m : Microstore) (n : Nat) (pl : List Byte) :
    let s := placed .starting fun h => { h with
      boot := { h.boot with step := 4, slot := some false, containers := [firmwareContainer] } }
    slotStore s.hub (flashOf s.hub false) s.hub.boot.containers = .ok (m, n) →
    payloadOf s.hub (flashOf s.hub false) firmwareContainer = some pl →
    mayLeaveReset s.hub 0 (s.chan 0) = true ∧ isHeld s.hub 0 = false ∧ s.hub.boot.slot = some false ∧
      forChan s.hub.boot.containers 5 0 = some firmwareContainer ∧ firmwareContainer.fail = 0 ∧
      (∀ x ∈ s.hub.boot.containers, (2 ≤ x.kind.toNat ∧ x.kind.toNat ≤ 4) ∨ x = firmwareContainer →
        sameDigest (flashOf s.hub false) x = true) := by
  intro s _ _
  refine ⟨by decide, by decide, rfl, rfl, rfl, ?_⟩
  intro x h _
  rw [List.mem_singleton.mp h]
  exact decide_eq_true rfl

/-- Channel 0 runs, the link is up and its function decodes memory requests. -/
def hosted (f : Fn → Fn) : State := served 9 fun ch => { ch with fn := f { ch.fn with mse := true, bme := true } }

/-- Meets the reset and training clauses of HostPortServesRequests. -/
theorem meets_HostPortServesRequests_link :
    State.reset.hub.supply.perst = true ∧
    (let h := (placed .run id).hub
     h.supply.perst = false ∧ h.supply.fatal = false ∧ canTrain h = true ∧ linkUp h = true ∧ h.supply.rails = true ∧
       restartable h = true ∧ isHeld h 0 = false) ∧
    (let h := (placed .run (supplied fun p => { p with perst := true })).hub
     h.supply.perst = true ∧ managed h = true ∧ lcState h.fuses ≠ 4) ∧
    (let s := hosted fun fn => { fn with retry := true }; retries s 1 = true ∧ retries s 0 = false) ∧
    decodes { (placed .run id).hub.pf0 with mse := true } = true ∧ (3 : BitVec 4) ≠ 15 := by decide

/-- Meets the clauses of a channel that serves the host: the last byte of each window, and the last vector. -/
theorem meets_HostPortServesRequests_memory :
    HostServed (hosted id) 0 ∧ ((hosted id).chan 0).mem.dmarks = [] ∧ ((hosted id).chan 0).hbm.marks = [] ∧
    Memory.wf ((hosted id).chan 0).mem.dmem = true ∧ Memory.wf ((hosted id).chan 0).hbm.bytes = true ∧
    0x7FFF + [some (1 : Byte)].length ≤ 0x8000 ∧ (2 ^ 34 - 1) + [some (1 : Byte)].length ≤ 2 ^ 34 ∧
    sparseWf (1#128 <<< 96) ((hosted id).chan 0).fn.table = true ∧
    (let ch := (hosted fun fn => { fn with pba := [259], msixEn := true }).chan 0
     259 < 260 ∧ ch.fn.pba = [259] ∧ ch.fn.msixEn = true ∧ ch.fn.bme = true ∧ ch.fn.funcMask = false) ∧
    (let e := entry [0] (.hostRead 8 64)
     memoriesClocked ((moving e).chan 0) = true ∧ entryAt ((moving e).chan 0) 0 = some e ∧ e.state = .hostRead 8 64) := by
  unfold HostServed
  decide +kernel

/-! ### Errors, capture, the debug port and management -/

/-- Channel 0 runs on a managed module with its error registers as `f` leaves them. -/
def erring (f : Err → Err) : State := served 9 fun ch => { ch with err := f ch.err }

/-- A report of a class. -/
def reported (k : ErrClass) (fence : Bool) : Report := { cls := k, code := 7, unit := 0, detail := 0, fence := fence }

/-- Meets the report clauses of ErrorsAreReportedAndHandled, for each class and with no report. -/
theorem meets_ErrorsAreReportedAndHandled_reports :
    (∀ p ∈ [(ErrClass.ce, false), (.ucc, false), (.ucc, true), (.fatal, false)],
      let s := erring fun e => { e with src := { e.src with queue := [reported p.1 p.2] } }
      managed s.hub = true ∧ (s.chan 0).err.src.queue = [reported p.1 p.2] ∧ (∀ d : Ch, ¬ d < 0) ∧
        (s.chan 0).cstate ≠ .fenced) ∧
    (let s := erring id
     managed s.hub = true ∧ (∀ d, (s.chan d).err.src.queue = []) ∧ ∀ k : Fin 8, s.hub.log.sources[k].queue = []) := by
  decide

/-- A report that waits for its queue: with no entry taken beyond the oldest, and with 16 of them. -/
theorem meets_ErrorsAreReportedAndHandled_waiting :
    (∀ n ∈ [0, 16], let s := erring fun e => { e with src := { e.src with
        queue := reported .ce false :: List.replicate n (reported .ucc false), waiting := [reported .ucc false] } }
      managed s.hub = true ∧ (s.chan 0).err.src.queue = reported .ce false :: List.replicate n (reported .ucc false) ∧
        (s.chan 0).err.src.waiting = [reported .ucc false] ∧ (∀ d : Ch, ¬ d < 0)) ∧
    (recordNow (erring id).hub).counter.toNat + 1 < 2 ^ 32 ∧
    ∀ d, ((erring id).chan d).pwr.arm0 = false ∧ ((erring id).chan d).pwr.arm1 = false := by decide

/-- Meets the clauses of error sources: one and two PLLs, a pair, INMCHK 0 and 1, and every tamper sensor. -/
theorem meets_ErrorsAreReportedAndHandled_sources :
    (∀ b ∈ [true, false], let s := served 9 fun ch => { ch with ctl := { ch.ctl with inmchk := b } }
      monitored s.hub = true ∧ (s.chan 0).cstate ≠ .fenced ∧ (s.chan 0).ctl.inmchk = b ∧ memoriesClocked (s.chan 0) = true) ∧
    (3 : BitVec 16) &&& (3 - 1) ≠ 0 ∧
    (let h := (placed .run fun h => { h with
       fuses := { h.fuses with lc := Vector.ofFn fun i => if i.val < 2 then 31 else 0 }
       supply := { h.supply with lidOpen := true } }).hub
     h.supply.aux = true ∧ ∀ k : Fin 5, tamperSensed h k = true) := by decide

/-- Channels 0 and 1 run as a pair, with the outputs that wait to be compared. -/
def pairing (xs ys : List PairOut) : State :=
  let one := fun (zs : List PairOut) (ch : Chan) => { ch with err := { ch.err with mode := 2, copies := zs } }
  (served 9 (one xs)).setChan 1 (one ys { Chan.reset 1 with cstate := .run })

/-- Meets the clauses of a pair: an output without its copy, one that differs, and one that matches. -/
theorem meets_ErrorsAreReportedAndHandled_pair :
    (∀ p ∈ [([PairOut.vec 5], []), ([.vec 5], [.vec 6]), ([.vec 5], [.vec 5])], let s := pairing p.1 p.2
      pairCompares s 0 = true ∧ (s.chan 0).err.copies = p.1 ∧ (s.chan (partnerOf 0)).err.copies = p.2) ∧
    outKind (.vec 5) = outKind (.vec 6) ∧ PairOut.vec 5 ≠ .vec 6 := by decide +kernel

/-- Meets the capture clauses: not armed, armed, done, and an edge that has come. -/
theorem meets_ErrorsAreReportedAndHandled_capture :
    (∀ k ∈ [0, 1, 2], let ch := (erring fun e => { e with capState := BitVec.ofNat 2 k }).chan 0
      memoriesClocked ch = true ∧ ch.err.capState = BitVec.ofNat 2 k) ∧
    (let ch := (served 9 fun ch => { ch with
       err := { ch.err with capState := 1, capStep := 4 }, seq := { ch.seq with stepcount := 5 } }).chan 0
     memoriesClocked ch = true ∧ captureDue ch = true) := by decide +kernel

/-- The four redundancy groups of life-cycle fuses of a state of life. -/
def lifeOf (n : Nat) (f : Fuses) : Fuses := { f with lc := Vector.ofFn fun i => if i.val < n then 31 else 0 }

/-- A debug command of channel 0 waits for the Maltster at a level, with data. -/
def mailed (code arg : Nat) (level : Nat) (data : List Word) (f : Chan → Chan) : State :=
  let s := served 9 f
  { s with hub := { s.hub with dap := { s.hub.dap with
      busy := true, cmd := BitVec.ofNat 32 (code ||| arg <<< 8 ||| data.length <<< 16), data := data
      level := BitVec.ofNat 2 level } } }

/-- Meets the TAP clauses of DebugCommandsFollowTheirLevel. -/
theorem meets_DebugCommandsFollowTheirLevel_tap :
    (placed .run id).hub.supply.aux = true ∧ managed (placed .run id).hub = true ∧
    (mailed 4 0 0 [] id).hub.dap.busy = true ∧ (placed .run id).hub.dap.busy = false ∧
    ((0x00010010 : Word).extractLsb' 16 16).toNat ≠ 0 ∧ (0x00000004 : Word).extractLsb' 16 16 = 0 ∧
    (let d := { (placed .run id).hub.dap with words := 1, cmd := 0x10, resp := [7] }
     d.busy = false ∧ d.words = 1 ∧ dapKnown (d.cmd.extractLsb' 0 8).toNat = true ∧ d.resp = [7]) := by decide

/-- Every owner command at its length and with what it acts on. -/
theorem meets_DebugCommandsFollowTheirLevel_owner :
    (∀ p ∈ [(0x10, [0x110]), (0x11, [0x110, 1]), (0x12, [9, 0x3FC00, 1024]), (0x13, []), (0x14, []), (0x15, []), (0x16, [])],
      let data : List Word := p.2.map (BitVec.ofNat 32)
      let s := mailed p.1 0 1 data id
      let d := s.hub.dap
      managed s.hub = true ∧ d.busy = true ∧ d.cmd.extractLsb' 0 8 = BitVec.ofNat 8 p.1 ∧
        (d.cmd.extractLsb' 16 16).toNat = p.2.length ∧ d.level ≠ 0 ∧ d.cmd.extractLsb' 8 8 = BitVec.ofNat 8 (0 : Ch).val ∧
        regReadable s.hub (s.chan 0) = true ∧ regWritable s.hub (s.chan 0) = true ∧ s.hub.supply.rails = true ∧
        restartable s.hub = true ∧ (s.chan 0).err.mode ≠ 2 ∧ isHeld s.hub 0 = false ∧ started (s.chan 0) = true ∧
        frozen (s.chan 0) = false ∧ (s.chan 0).mem.dmarks = []) ∧
    (let s := mailed 0x11 0 1 [0x110, 1] id
     ioRead s.hub (s.chan 0) 0x110 ≠ none ∧ ioAssigned s.hub (s.chan 0) 0x110 = true ∧
       outBlocked (s.chan 0) 0x110 1 = false ∧ isStackPtr 0x110 = false ∧ asksDoze 0x110 1 = false) ∧
    (let s := mailed 0x11 0 1 [0x1CC0, 2] id
     s.hub.dap.asked = false ∧ regWritable s.hub (s.chan 0) = true ∧ dapWord s.hub 0 = 0x1CC0 ∧ (dapWord s.hub 1).getLsbD 1 = true ∧
       (s.chan 0).cstate ≠ .doze ∧ (s.chan 0).pwr.reqHost = false ∧
       ({ s.hub with dap := { s.hub.dap with asked := true } } : Hub).dap.asked = true) ∧
    (let ch := (mailed 0x13 0 1 [] fun ch => { ch with err := { ch.err with capState := 3 } }).chan 0; frozen ch = true) ∧
    (0x3FC00 + 1024 ≤ 262144) := by decide +kernel

/-- Commands that change the level, the life cycle or nothing: their codes, lengths and life-cycle states. -/
theorem meets_DebugCommandsFollowTheirLevel_states :
    (∀ p ∈ [(2, 1, 2), (2, 2, 1), (2, 2, 2), (2, 2, 3), (4, 0, 1), (0x80, 0, 0)],
      let s := mailed p.1 p.2.1 0 [] id
      let h := { s.hub with fuses := lifeOf p.2.2 s.hub.fuses }
      managed h = true ∧ h.dap.busy = true ∧ h.dap.cmd.extractLsb' 0 8 = BitVec.ofNat 8 p.1 ∧
        (h.dap.cmd.extractLsb' 16 16).toNat = 0 ∧ h.dap.cmd.extractLsb' 8 8 = BitVec.ofNat 8 p.2.1 ∧
        lcState h.fuses = p.2.2) ∧
    (let s := mailed 5 0 0 (List.replicate 28 0) id
     s.hub.dap.busy = true ∧ (s.hub.dap.cmd.extractLsb' 16 16).toNat = 28 ∧ lcState s.hub.fuses = 0) ∧
    (mailed 0x80 0 2 [] id).hub.dap.level.toNat = 2 := by decide

/-- The sealed record of an owner whose password is the one byte `b`. -/
def ownerOf (b : Byte) : Sealed :=
  { state := 2, ownerKek := 0, ownerKey := 0, floor := 0
    password := some { salt := [9], hash := Config.sha384 ([9] ++ [b]) } }

/-- The state in which PW_UNLOCK comes with one byte, after `n` failures. -/
def passing (n : Nat) (owner : Option Sealed) : State :=
  let s := mailed 1 1 0 [7] id
  { s with hub := { s.hub with fuses := lifeOf 2 s.hub.fuses, cask := { s.hub.cask with owner := owner, pwFail := n } } }

/-- Meets the clauses of PW_UNLOCK: the right password, none set, and 8 failures. -/
theorem meets_DebugCommandsFollowTheirLevel_password :
    (∀ n ∈ [0, 7, 8], let h := (passing n none).hub
      managed h = true ∧ h.dap.busy = true ∧ (h.dap.cmd.extractLsb' 16 16).toNat = (1 + 3) / 4 ∧
        h.dap.cmd.extractLsb' 8 8 = BitVec.ofNat 8 1 ∧ lcState h.fuses = 2 ∧ h.cask.pwFail = n ∧
        passwordOk h ((dapBytes h).take 1) = false) ∧
    (let h := (passing 7 (some (ownerOf 7))).hub
     h.cask.pwFail < 8 ∧ passwordOk h ((dapBytes h).take 1) = true) :=
  ⟨by decide, by decide, decide_eq_true rfl⟩

/-- A challenge that has been used or not, issued at a time. -/
def challenged (used : Bool) (issued : BitVec 64) : State :=
  let s := mailed 3 0 0 (List.replicate 24 0) id
  { s with hub := { s.hub with
      timebase := { s.hub.timebase with count := 60000000000 }
      cask := { s.hub.cask with challenge := some { nonce := 0, state := 2, level := 1, floor := 0, issued := issued, used := used } } } }

/-- Meets the clauses of CR_RESPONSE: 60 s after the challenge, more than 60 s after it, and a used one. -/
theorem meets_DebugCommandsFollowTheirLevel_response :
    (∀ p ∈ [(false, 0, true), (false, 2 ^ 64 - 1, false), (true, 0, true)],
      let h := (challenged p.1 (BitVec.ofNat 64 p.2.1)).hub
      managed h = true ∧ h.dap.busy = true ∧ (h.dap.cmd.extractLsb' 16 16).toNat = 24 ∧ h.dap.cmd.extractLsb' 8 8 = 0 ∧
        ∃ k ∈ h.cask.challenge, k.used = p.1 ∧ within60 h k.issued = p.2.2) := by
  intro p h
  simp only [List.mem_cons, List.not_mem_nil, or_false] at h
  rcases h with rfl | rfl | rfl <;> exact ⟨by decide, by decide, by decide, by decide, _, rfl, by decide, by decide⟩

/-- The module with its services as `f` leaves them. -/
def managing (f : Services → Services) : State := placed .run fun h => { h with services := f h.services }

/-- Meets the discovery, update and flash clauses of ManagementServicesAct. -/
theorem meets_ManagementServicesAct_offered :
    (∀ k < 3, let h := (managing fun v => { v with
        spdm := k, agreed := decide (k = 2), updating := Vector.replicate 2 (decide (k = 1)) }).hub
      managed h = true ∧ updatable h = true ∧ firmware h = true ∧ h.services.spdm = k ∧ h.boot.slot ≠ some true ∧
        h.services.agreed = decide (k = 2) ∧ updating h true = decide (k = 1) ∧
        Memory.wf (flashOf h true).bytes = true) ∧
    (let h := (placed .run fun h => { h with boot := { h.boot with slot := some true } }).hub
     updatable h = true ∧ h.boot.slot = some true ∧ Memory.wf (flashOf h false).bytes = true) ∧
    (let h := (placed .run fun h => { h with cask := { h.cask with attest := true }
                                             fuses := { h.fuses with deviceSecret := some 1 } }).hub
     h.cask.attest = true ∧ h.fuses.deviceSecret = some 1) ∧
    (0x1EFFFFF + [(1 : Byte)].length ≤ 0x1F00000 ∧ 0x1F00000 < 0x1F00000 + [(1 : Byte)].length ∧
      0x1FFFFFF + [(1 : Byte)].length ≤ 0x2000000) ∧
    (State.reset.hub.supply.aux = false ∧ Memory.wf State.reset.hub.flash[0].bytes = true) ∧
    logHolds { State.reset.hub.log with head := 1 } 0 = true ∧ logHolds { State.reset.hub.log with head := 256 } 0 = true ∧
    logHolds { State.reset.hub.log with head := 0, ring := Vector.replicate 256 0xFFFFFFFF } 0xFFFFFFFF = true :=
  ⟨by decide +kernel, by decide +kernel, by decide +kernel, by decide, by decide +kernel, by decide, by decide, by decide +kernel⟩

/-- Meets the clauses of a device that declares an erase, and of one that declares none and is being updated, whichever of
the two its parameters, which the spec leaves to it, say. -/
theorem meets_ManagementServicesAct_erase (b : Bool) :
    let h := (managing fun v => { v with updating := Vector.replicate 2 true }).hub
    (eraseUnit (Config.sfdp true)).isSome = b →
    updatable h = true ∧ h.boot.slot ≠ some true ∧ Memory.wf (flashOf h true).bytes = true ∧ updating h true = true ∧
      slotState (flashOf h true) = 0 := by
  intro h _
  exact ⟨by decide +kernel, by decide, by decide, by decide, by decide +kernel⟩

/-- The module in a state of life with a fresh nonce 5, the generations of its slot and an owner's record. -/
def ordered (life : Nat) (floor : List Half) (f : Chan → Chan) : State :=
  let s := served 9 f
  { s with hub := { s.hub with
      fuses := { lifeOf life s.hub.fuses with floor := floor, obsumDigest := some 0, deviceSecret := some 1 }
      cask := { s.hub.cask with owner := some (ownerOf 7), attest := true }
      services := { s.hub.services with given := [{ value := 5, issued := 0, used := false }] }
      boot := { s.hub.boot with containers := [{ millContainer with kind := 1, gen := 3 }, { millContainer with kind := 2, gen := 4 }] } } }

/-- Wherever the signature of the command verifies, which log 72 leaves free, the command is authorised. -/
theorem authorised_of_signature (name : String) (ns : List Nat) (sig : List Byte) (key : BitVec 384)
    (hv : Config.sigValid key (Config.sha384 (signedBytes name ns { nonce := 5, sig := sig })) sig = true) :
    authorised (ordered 2 [] id).hub (some key) name ns { nonce := 5, sig := sig } = true := by
  have h : nonceOk (ordered 2 [] id).hub { nonce := 5, sig := [] } = true := by decide +kernel
  have same : ∀ k : Hub, nonceOk k { nonce := 5, sig := sig } = nonceOk k { nonce := 5, sig := [] } := fun _ => rfl
  unfold authorised signed
  rw [Bool.and_eq_true]
  exact ⟨(same _).trans h, hv⟩

/-- Meets what the authorised commands ask beside their authorisation: keys, ENROL, floors at both ends, a yield with an
op and without one. A command without its nonce meets the clause of refusals. -/
theorem meets_ManagementServicesAct_ordered :
    (∀ life ∈ [1, 2, 3], let h := (ordered life [] id).hub
      firmware h = true ∧ obsumKey h = some 0 ∧ ownerKeyOf h = some 0 ∧ h.cask.attest = true ∧ lcState h.fuses = life ∧
        h.supply.lidOpen = false ∧ h.returnDue = false ∧ h.cask.owner.isSome = true ∧ slotGens h.boot.containers = (3, 4)) ∧
    (∀ p ∈ [(0, 0, 0), (1, 0, 0), (3, 0, 0), (4, 0, 0), (3, 64, 2)],
      let h := (ordered 2 (List.replicate p.2.1 (BitVec.ofNat 16 p.2.2)) id).hub
      h.fuses.floor.length = p.2.1 ∧ (floorOf h.fuses).toNat = p.2.2) ∧
    nonceOk (ordered 2 [] id).hub { nonce := 6, sig := [] } = false ∧
    (∀ k ∈ (ordered 2 [] id).hub.boot.containers, ownKind k = false) ∧ (ownerOf 7).floor.toNat < (1 : Half).toNat ∧
    (let ch := (ordered 2 [] id).chan 0
     memoriesClocked ch = true ∧ ch.err.mode ≠ 2 ∧ ch.trap.state ≠ 1 ∧ ch.trap.state ≠ 2 ∧ ch.seq.cur = none) ∧
    (let ch := (ordered 2 [] fun ch => { ch with seq := { ch.seq with cur := some (op600 1) } }).chan 0
     ch.seq.cur = some (op600 1) ∧ ch.trap.yreq = none ∧ ch.trap.state ≠ 3 ∧ (op600 1).ucount = 0 ∧ dRound (op600 1).descA ≠ 5) ∧
    (let ch := (ordered 2 [] fun ch => { ch with
       trap := { ch.trap with state := 3 }, seq := { ch.seq with cur := some (op600 1) } }).chan 0
     ch.seq.cur = some (op600 1) ∧ ch.trap.yreq = none ∧ ch.trap.state ≠ 1 ∧ ch.trap.state ≠ 2) ∧
    restartable (ordered 2 [] id).hub = true := by decide +kernel

/-! ### The whole machine -/

/-- Meets ControllerInstructionsStayInTheirChannel and ControllerInstructionsKeepTheirBounds. -/
theorem meets_ControllerInstructions :
    ctlOf (.dup 0) = some 0 ∧ ((stack [1]).chan 0).ctl.bounded ∧ ∃ t, exec (.dup 0) (stack [1]) = .next t :=
  ⟨rfl, by unfold Ctl.bounded; decide, _, rfl⟩

/-- Meets the three statements about every step, from reset. -/
theorem meets_EveryStep :
    (∃ t, step State.reset = .next t) ∧ State.reset.hub.fuses.floorOrdered ∧ State.reset.memWf = true :=
  ⟨⟨_, rfl⟩, by unfold Fuses.floorOrdered; decide, by decide⟩

/-! ### Single steps, against the spec's worked examples and tables -/

/-- Channel 0 after the command, where it answers a next state. -/
def after (i : Instr) (s : State) : Option Chan :=
  match exec i s with
  | .next t => some (t.chan 0)
  | _ => none

/-- The data cells after the command, top first. -/
def cellsAfter (i : Instr) (ds : List Word) : Option (List Word) := (after i (stack ds)).map (·.ctl.ds)

/-- The result and the flags NV, DZ, OF, UF, NX and BD, bits 0 to 5, of a floating instruction with FPCTL `fp`. -/
def floatAfter (i : Instr) (fp : Nat) (ds : List Word) : Option (Nat × Nat) :=
  (after i (ctlAs fun t => { t with ds := ds, fpctl := BitVec.ofNat 10 fp })).map fun ch =>
    ((ch.ctl.ds.headD 0).toNat, ch.ctl.fpctl.toNat >>> 4)

/-- 08, A 64-bit multiply-accumulate: the product, the low sum with its carry, and the high sum. -/
theorem test_multiply_accumulate :
    cellsAfter (.mulwu 0) [2, 0xFFFFFFFF] = some [1, 0xFFFFFFFE] ∧
    (after (.add 0) (stack [0xFFFFFFFE, 5])).map (fun ch => (ch.ctl.ds, ch.ctl.c)) = some ([3], true) ∧
    (after (.adc 0) (ctlAs fun t => { t with ds := [1, 0], c := true })).map (·.ctl.ds) = some [2] := by decide +kernel

/-- R213: division truncates, and the most negative number by −1 sets V. -/
theorem test_divs : cellsAfter (.divs 0) [2, 0xFFFFFFF9] = some [0xFFFFFFFD, 0xFFFFFFFF] ∧
    (after (.divs 0) (stack [0xFFFFFFFF, 0x80000000])).map (·.ctl.v) = some true := by decide +kernel

/-- The state of 07's worked example before its CALL. -/
def loopBody : Ctl → Ctl := fun t =>
  { t with pc := 0x2000, a := (t.a.set 0 0x4000).set 1 0x8000, vl := 64, ie := true, z := true, depth := 1
           levels := t.levels.set 0 { ls := 0x1F00, le := 0x2040, lc := 12 } }

/-- 07, A trap inside a called routine: the nine cells that the CALL pushes, and its target. -/
theorem test_call : (after (.call 0 0x3000 0x0503) (ctlAs loopBody)).map (fun ch => (ch.ctl.rs.reverse, ch.ctl.pc, ch.ctl.depth)) =
    some ([0x4000, 0x8000, 0x1F00, 0x2040, 0xC, 1, 2, 0x0503, 0x2006], 0x3000, 0) := by decide +kernel

/-- The same: the seven cells that the entry to line 7 pushes, and what the entry leaves. -/
theorem test_trapEntry :
    let s := run fun ch => { ch with
      ctl := { loopBody ch.ctl with pc := 0x3013, depth := 0, repc := 2, repact := true }
      ev := { ch.ev with intPend := 0x80, intEn := 0x80 } }
    (after (.asyncTrapEntry 0) s).map (fun ch => (ch.ctl.rs.reverse, ch.ctl.ie, ch.ctl.repc, ch.ctl.repact)) =
      some ([0, 0x40, 0, 2, 0xA2, 0x10B00, 0x3013], false, 0, false) := by decide +kernel

/-- The same: RETI restores STATUS, REPC, VL and the empty nest, and resumes at the repeated instruction. -/
theorem test_reti :
    (after (.reti 0) (ctlAs fun t => { t with rs := [0x3013, 0x10B00, 0xA2, 2, 0, 0x40, 0] })).map
      (fun ch => ((ch.ctl.rs, ch.ctl.pc, ch.ctl.repc, ch.ctl.repact), ch.ctl.ie, ch.ctl.z, ch.ctl.vl, ch.ctl.depth)) =
        some (([], 0x3013, 2, true), true, true, 64, 0) := by decide +kernel

/-- The same: RET restores FLAGS, the nest, A1 and A0, and continues after the CALL. -/
theorem test_ret :
    (after (.ret 0) (ctlAs fun t => { t with
      rs := [0x2006, 0x0503, 2, 1, 0xC, 0x2040, 0x1F00, 0x8000, 0x4000] })).map
      (fun ch => ((ch.ctl.rs, ch.ctl.pc, ch.ctl.z), ch.ctl.a[0], ch.ctl.a[1], ch.ctl.depth, (levelAt ch.ctl 0).lc)) =
        some (([], 0x2006, true), 0x4000, 0x8000, 1, 12) := by decide +kernel

/-- 08, A first-fault load at the end of DMEM. -/
theorem test_vldff :
    (after (.vldff 0 0x18 0) (ctlAs fun t => { t with vl := 16, a := t.a.set 0 0xFFFF0 })).map
      (fun ch => (ch.ctl.vl, ch.ctl.vff, ch.ctl.a[0], ch.ctl.vs.length)) = some (4, true, 0x100000, 1) := by decide +kernel

/-- R149, rows of sums: MAX + MAX, under RTZ, MAX + ONE, and a signaling NaN. -/
theorem test_fadd :
    floatAfter (.fadd 0) 0 [0x7F7FFFFF, 0x7F7FFFFF] = some (0x7F800000, 0x14) ∧
    floatAfter (.fadd 0) 0 [0x3F800000, 0x7F7FFFFF] = some (0x7F7FFFFF, 0x10) ∧
    floatAfter (.fadd 0) 0 [0x7FC00000, 0x7FA00000] = some (0x7FC00000, 0x01) := by decide +kernel

/-- R149, rows of products and quotients: MINSUB × HALF, ∞ × 0, −1 ÷ 0, MINSUB ÷ MAX. -/
theorem test_fmul_fdiv :
    floatAfter (.fmul 0) 0 [0x3F000000, 1] = some (0, 0x18) ∧
    floatAfter (.fmul 0) 0 [0x7F800000, 0] = some (0x7FC00000, 1) ∧
    floatAfter (.fdiv 0) 0 [0, 0xBF800000] = some (0xFF800000, 2) ∧
    floatAfter (.fdiv 0) 0 [0x7F7FFFFF, 1] = some (0, 0x18) := by decide +kernel

/-- R149, rows of square roots: −0 and −MINSUB. -/
theorem test_fsqrt : floatAfter (.fsqrt 0) 0 [0x80000000] = some (0x80000000, 0) ∧
    floatAfter (.fsqrt 0) 0 [0x80000001] = some (0x7FC00000, 1) := by decide +kernel

/-- 03, An op word: the ADD of the worked example issues as routine 17. -/
theorem test_opWord : opRoutine 0x044C0000400200000000000000000000 = 17 := by decide

/-- 06, An exact dot product: the merge of −2^2,236 into 2^2,236 + 2^2,176 leaves 2^2,176. -/
theorem test_rootMerge :
    let s := run fun ch => { ch with lau := { ch.lau with
      roots := [{ tag := 0, op := .merge, age := 36 }], la := 1 <<< 2236 + 1 <<< 2176, bank := 0 - 1 <<< 2236, rxCount := 1, expect := 1 } }
    (after (.rootMerge 0) s).map (fun ch => (ch.lau.la, ch.lau.bank, ch.lau.rxCount, ch.lau.events)) =
      some ((1 <<< 2176 : Acc), (0 : Acc), (0 : Half), (0 : BitVec 3)) := by decide +kernel

/-- 13, Enabling queue pair 12: 0x289 at offset 0x2830 enables it with depth 4, and RQ_CFG held 0x80. -/
theorem test_rqCfg :
    let s := served 9 fun ch => { ch with fn := { ch.fn with mse := true } }
    ioRead s.hub (s.chan 0) 0x0A0C = some 0x80 ∧
    (after (.hostBar0RegisterWrite 1 0x2830 [{ value := 0x289, enables := 15 }] []) s).map
      (fun ch => ((qpAt ch 12).enable, (qpAt ch 12).log2, (qpAt ch 12).prio, (qpAt ch 12).irqEn)) =
        some (true, 2, true, true) := by decide +kernel

/-- 12, A route across datelines: CH1 of module (0, 1, 15) is the channel at (1, 4, 15). -/
theorem test_globalAddr : globalAddr 0x01F 1 = 0x044F := by decide

end Sys2Proof.Tests
end

section
/-! O17: the flags that a difference leaves, and what the conditions of R181 say of them. -/
namespace Sys2Proof.Machine

/-- V as the model words it (R180) is the library's signed overflow of a subtraction. -/
theorem sign_test_eq_ssubOverflow {w : Nat} (a b : BitVec w) :
    (a.msb != b.msb && (a - b).msb != a.msb) = a.ssubOverflow b := by
  rw [BitVec.ssubOverflow_eq]
  cases a.msb <;> cases b.msb <;> simp

/-- Without overflow the sign of the difference orders the operands; with it the operands' own signs do. -/
theorem sub_msb_eq_ssubOverflow_iff {w : Nat} (a b : BitVec w) :
    (a - b).msb = a.ssubOverflow b ↔ b.toInt ≤ a.toInt := by
  by_cases hv : a.ssubOverflow b = true
  · have hsigns := hv
    rw [BitVec.ssubOverflow_eq] at hsigns
    simp only [Bool.or_eq_true, Bool.and_eq_true, Bool.not_eq_true', BitVec.msb_eq_toInt (x := a),
      BitVec.msb_eq_toInt (x := b), decide_eq_true_eq, decide_eq_false_iff_not] at hsigns
    rw [hv]
    obtain ⟨⟨ha, hb⟩, hd⟩ | ⟨⟨ha, hb⟩, hd⟩ := hsigns
    · exact iff_of_true hd (by omega)
    · exact iff_of_false (by simp [hd]) (by omega)
  · have hd := BitVec.toInt_sub_of_not_ssubOverflow hv
    simp only [Bool.not_eq_true] at hv
    rw [hv, BitVec.msb_eq_toInt, hd, decide_eq_false_iff_not]
    omega

section
variable (a b : Word) (t : Ctl)

/-- Z of `a - b` (R180). -/
theorem diffOf_z_iff : (diffOf a b true t).2.z = true ↔ a = b := by
  have hsub : a - b = 0 ↔ a = b := sub_eq_zero
  simpa [diffOf, withNZ] using hsub

/-- C of `a - b` is the absence of a borrow (R180). -/
theorem diffOf_c_iff : (diffOf a b true t).2.c = true ↔ b.toNat ≤ a.toNat := by
  simp [diffOf]

/-- N and V of `a - b` agree exactly when `b` is at most `a` in signed order (R180). -/
theorem diffOf_n_eq_v_iff : (diffOf a b true t).2.n = (diffOf a b true t).2.v ↔ b.toInt ≤ a.toInt := by
  have hn : (diffOf a b true t).2.n = (a - b).msb := by simp [diffOf, withNZ]
  have hv : (diffOf a b true t).2.v = a.ssubOverflow b := by
    simp [diffOf, ← sign_test_eq_ssubOverflow]
  rw [hn, hv]
  exact sub_msb_eq_ssubOverflow_iff a b

end

/-- The column of flags of R181, condition by condition. -/
theorem condHolds_columns (t : Ctl) :
    ((List.range 16).map fun k => condHolds t (BitVec.ofNat 4 k)) =
      [t.z, !t.z, t.c, !t.c, t.n, !t.n, t.v, !t.v, t.c && !t.z, !t.c || t.z, t.n == t.v, t.n != t.v,
        !t.z && t.n == t.v, t.z || t.n != t.v, t.vff, !t.vff] := rfl

section
variable {a b : Word} {u : Ctl}

/-- EQ and NE test equality wherever Z does. -/
theorem condHolds_equality (hz : u.z = true ↔ a = b) :
    (condHolds u 0 = true ↔ a = b) ∧ (condHolds u 1 = true ↔ a ≠ b) := by
  obtain ⟨hEQ, hNE⟩ : condHolds u 0 = u.z ∧ condHolds u 1 = !u.z := ⟨rfl, rfl⟩
  rw [hEQ, hNE]
  simp only [Bool.not_eq_true', ← Bool.not_eq_true, hz, ne_eq, and_self]

/-- CS, CC, HI and LS test unsigned order wherever C and Z do. -/
theorem condHolds_unsigned (hz : u.z = true ↔ a = b) (hc : u.c = true ↔ b.toNat ≤ a.toNat) :
    (condHolds u 2 = true ↔ b.toNat ≤ a.toNat) ∧ (condHolds u 3 = true ↔ a.toNat < b.toNat) ∧
    (condHolds u 8 = true ↔ b.toNat < a.toNat) ∧ (condHolds u 9 = true ↔ a.toNat ≤ b.toNat) := by
  obtain ⟨hCS, hCC, hHI, hLS⟩ : condHolds u 2 = u.c ∧ condHolds u 3 = !u.c ∧ condHolds u 8 = (u.c && !u.z) ∧
      condHolds u 9 = (!u.c || u.z) := ⟨rfl, rfl, rfl, rfl⟩
  rw [hCS, hCC, hHI, hLS]
  simp only [Bool.and_eq_true, Bool.or_eq_true, Bool.not_eq_true', ← Bool.not_eq_true, hz, hc,
    ← BitVec.toNat_inj]
  exact ⟨trivial, by omega, by omega, by omega⟩

/-- GE, LT, GT and LE test signed order wherever N, V and Z do. -/
theorem condHolds_signed (hz : u.z = true ↔ a = b) (hs : u.n = u.v ↔ b.toInt ≤ a.toInt) :
    (condHolds u 10 = true ↔ b.toInt ≤ a.toInt) ∧ (condHolds u 11 = true ↔ a.toInt < b.toInt) ∧
    (condHolds u 12 = true ↔ b.toInt < a.toInt) ∧ (condHolds u 13 = true ↔ a.toInt ≤ b.toInt) := by
  obtain ⟨hGE, hLT, hGT, hLE⟩ : condHolds u 10 = (u.n == u.v) ∧ condHolds u 11 = (u.n != u.v) ∧
      condHolds u 12 = (!u.z && u.n == u.v) ∧ condHolds u 13 = (u.z || u.n != u.v) := ⟨rfl, rfl, rfl, rfl⟩
  rw [hGE, hLT, hGT, hLE]
  simp only [Bool.and_eq_true, Bool.or_eq_true, Bool.not_eq_true', ← Bool.not_eq_true, beq_iff_eq,
    bne_iff_ne, ne_eq, hz, hs, ← BitVec.toInt_inj]
  exact ⟨trivial, by omega, by omega, by omega⟩

end

/-- Settles O17: the columns of R181 hold by definition, and a difference leaves Z, C and N = V as equality, unsigned
and signed order of its operands. -/
theorem conditionsTestTheirFlags : Obligations.ConditionsTestTheirFlags := by
  refine ⟨condHolds_columns, fun a b t => ?_⟩
  have hz := diffOf_z_iff a b t
  obtain ⟨hEQ, hNE⟩ := condHolds_equality hz
  obtain ⟨hCS, hCC, hHI, hLS⟩ := condHolds_unsigned hz (diffOf_c_iff a b t)
  exact ⟨hEQ, hNE, hCS, hCC, hHI, hLS, condHolds_signed hz (diffOf_n_eq_v_iff a b t)⟩

end Sys2Proof.Machine
end

section
/-! The rules by which a controller instruction completes or traps, from its fetch and its work on the data stack. -/
namespace Sys2Proof.Machine

/-! ### One instruction (R192 to R194) -/

section
variable {s : State} {c : Ch} {len : Nat} {ch : Chan} {f : Chan → Except TrapInfo Chan}

/-- A sequential instruction whose fetch and work succeed completes. -/
theorem ctl_completes {r : Chan} (hfetch : Fetches s c len ch) (hwork : f ch = .ok r) :
    ctl c len f s = .next (s.setChan c (afterInstr (advance r len))) := by
  obtain ⟨hready, hok⟩ := hfetch
  simp [ctl, onChan, runInstr, seqBody, hready, hok, hwork]

/-- A sequential instruction whose fetch succeeds and whose work raises a trap takes it. -/
theorem ctl_traps {e : TrapInfo} (hfetch : Fetches s c len ch) (hwork : f ch = .error e) :
    ctl c len f s = .next (s.setChan c (syncTrap ch e)) := by
  obtain ⟨hready, hok⟩ := hfetch
  simp [ctl, onChan, runInstr, seqBody, hready, hok, hwork]

end

/-- A trap keeps the reads that were made before it, whatever the instruction had done to the controller registers
(R173, R240). -/
theorem syncTrap_metIn (ch f : Chan) (t : Ctl) {e : TrapInfo} (hmet : e.met = none) :
    syncTrap ch (metIn { f with ctl := t } e) = syncTrap (keepReads ch f) e := by
  cases e
  subst hmet
  rfl

/-! ### Work on the data stack (R172, R173, R192) -/

section
variable {k : Nat} {work : List Word → Chan → Except TrapInfo (List Word × Chan)} {ch f : Chan} {xs rest : List Word}

/-- With its inputs `xs` in core, work that succeeds and results that fit, an instruction on the data stack succeeds: the
converse of `stackOp_ok`. -/
theorem stackOp_eq_ok {v r : Chan} {rs : List Word} (hfill : fillData ch xs.length = .ok f) (hds : f.ctl.ds = xs ++ rest)
    (hwork : work xs { f with ctl := { f.ctl with ds := rest } } = .ok (rs, v)) (hpush : pushData v rs = .ok r) :
    stackOp xs.length work ch = .ok r := by
  simp [stackOp, takeData, hfill, hds, hwork, trapIn, hpush]

/-- With its inputs `xs` in core and work that raises a trap, an instruction on the data stack raises it there. -/
theorem stackOp_eq_error {e : TrapInfo} (hfill : fillData ch xs.length = .ok f) (hds : f.ctl.ds = xs ++ rest)
    (hwork : work xs { f with ctl := { f.ctl with ds := rest } } = .error e) :
    stackOp xs.length work ch = .error (metIn { f with ctl := { f.ctl with ds := rest } } e) := by
  simp [stackOp, takeData, hfill, hds, hwork, trapIn]

end

/-! ### Integer instructions (R211 to R213) -/

section
variable {i : Instr} {c : Ch} {len : Nat} {work : Ctl → List Word → List Word × Ctl}

/-- An integer instruction of one input pops it and leaves what its work gives. -/
theorem pops1_of_alu {g : Word → Ctl → List Word × Ctl} (hexec : ∀ s, exec i s = ctl c len (alu 1 work) s)
    (hwork : ∀ a t, work t [a] = g a t) : Pops1 i c len g := by
  obtain rfl : (fun a t => work t [a]) = g := funext₂ hwork
  intro s ch f r a rest hfetch hfill hds x hpush
  exact (hexec s).trans (ctl_completes hfetch (stackOp_eq_ok (xs := [a]) hfill hds rfl hpush))

/-- An integer instruction of two inputs pops them and leaves what its work gives. -/
theorem pops2_of_alu {g : Word → Word → Ctl → List Word × Ctl} (hexec : ∀ s, exec i s = ctl c len (alu 2 work) s)
    (hwork : ∀ a b t, work t [b, a] = g a b t) : Pops2 i c len g := by
  obtain rfl : (fun a b t => work t [b, a]) = g := funext₃ hwork
  intro s ch f r a b rest hfetch hfill hds x hpush
  exact (hexec s).trans (ctl_completes hfetch (stackOp_eq_ok (xs := [b, a]) hfill hds rfl hpush))

end

/-- The model's N and Z are those of `withNZ` (R180). -/
theorem flagsNZ_eq_withNZ (t : Ctl) (r : Word) : flagsNZ t r = withNZ r t := by
  simp [flagsNZ, withNZ, bit, BitVec.msb_eq_getLsbD_last, beq_eq_decide]

end Sys2Proof.Machine
end

section
/-! O8: the shifts and rotates of R212. -/
namespace Sys2Proof.Machine

/-! ### The model's shifts as arithmetic -/

/-- A signed value is odd where its lowest bit is 1. -/
theorem toInt_odd_eq_getLsbD_zero (y : Word) : decide (y.toInt % 2 = 1) = y.getLsbD 0 := by
  rw [BitVec.getLsbD, Nat.testBit_zero, BitVec.toInt_eq_toNat_cond]
  split <;> exact decide_eq_decide.2 (by omega)

/-- An arithmetic shift continues a value by its bit 31. -/
theorem getLsbD_sshiftRight_eq_bit_min (x : Word) (n : Nat) {i : Nat} (hi : i < 32) :
    (x.sshiftRight n).getLsbD i = bit x (min (n + i) 31) := by
  rw [BitVec.getLsbD_sshiftRight, decide_eq_false (by omega), Bool.not_false, Bool.true_and]
  split
  · rw [Nat.min_eq_left (by omega), bit]
  · rw [Nat.min_eq_right (by omega), bit, BitVec.msb_eq_getLsbD_last]

/-- From a count of 31 on, an arithmetic shift gives 32 copies of bit 31. -/
theorem sshiftRight_of_le (x : Word) {n : Nat} (hn : 31 ≤ n) : x.sshiftRight n = x.sshiftRight 31 := by
  refine BitVec.eq_of_getLsbD_eq fun i hi => ?_
  rw [getLsbD_sshiftRight_eq_bit_min x n hi, getLsbD_sshiftRight_eq_bit_min x 31 hi,
    Nat.min_eq_right (by omega), Nat.min_eq_right (by omega)]

section
variable (x : Word) (n : Nat) (t : Ctl)

/-- SHL: x · 2^n cut to 32 bits, and C bit 32 of the product. -/
theorem shlBy_leftOf : nzcOf (shlBy x n).1 (shlBy x n).2 t = leftOf x n t := by
  have hval : BitVec.ofNat 32 (x.toNat <<< n) = x <<< n := BitVec.eq_of_toNat_eq (by simp)
  rw [leftOf, hval, Nat.testBit_shiftLeft]
  unfold shlBy
  split_ifs with h0 h32
  · rw [h0, BitVec.shiftLeft_zero]
  · rw [decide_eq_true h32]; rfl
  · rw [BitVec.shiftLeft_eq_zero (by omega), decide_eq_false h32]; rfl

/-- SHR: the unsigned quotient by 2^n, and C the last bit out. -/
theorem shrBy_rightOf : nzcOf (shrBy x n).1 (shrBy x n).2 t = rightOf x n t := by
  have hval : BitVec.ofNat 32 (x.toNat >>> n) = x >>> n :=
    BitVec.eq_of_toNat_eq (by rw [← BitVec.toNat_ushiftRight, BitVec.ofNat_toNat, BitVec.setWidth_eq])
  rw [rightOf, hval]
  unfold shrBy
  split_ifs with h0 h32
  · rw [h0, BitVec.ushiftRight_zero]
  · rfl
  · have hout : x.toNat.testBit (n - 1) = false := BitVec.getLsbD_of_ge x _ (by omega)
    rw [BitVec.ushiftRight_eq_zero (by omega), hout]

/-- SAR: the signed quotient by 2^n, and C the last bit out. -/
theorem sarBy_signedRightOf : nzcOf (sarBy x n).1 (sarBy x n).2 t = signedRightOf x n t := by
  have hval : BitVec.ofInt 32 (x.toInt >>> n) = x.sshiftRight n := by
    rw [← BitVec.toInt_sshiftRight, BitVec.ofInt_toInt]
  have hout : decide ((x.toInt >>> (n - 1)) % 2 = 1) = bit x (min (n - 1) 31) := by
    rw [← BitVec.toInt_sshiftRight, toInt_odd_eq_getLsbD_zero, getLsbD_sshiftRight_eq_bit_min x _ (by omega), Nat.add_zero]
  rw [signedRightOf, hval, hout]
  unfold sarBy
  split_ifs with h0 h32
  · rw [h0, BitVec.sshiftRight_zero]
  · rw [Nat.min_eq_left (by omega)]
  · rw [sshiftRight_of_le x (n := n) (by omega), Nat.min_eq_right (by omega)]

/-- ROL: both parts of the rotated value, and C bit 0 of it. -/
theorem rolBy_leftRoundOf : nzcOf (rolBy x n).1 (rolBy x n).2 t = leftRoundOf x n t := by
  unfold rolBy leftRoundOf
  split_ifs with h0
  · simp [h0, BitVec.ushiftRight_eq_zero (Nat.le_refl 32)]
  · simp [BitVec.rotateLeft_def, bit]

/-- ROR: both parts of the rotated value, and C bit 31 of it. -/
theorem rorBy_rightRoundOf : nzcOf (rorBy x n).1 (rorBy x n).2 t = rightRoundOf x n t := by
  unfold rorBy rightRoundOf
  split_ifs with h0
  · simp [h0]
  · simp [BitVec.rotateRight_def, bit]

end

/-! ### The instructions -/

/-- What a shift leaves is its value with N, Z and C of it. -/
theorem flagsNZC_eq_nzcOf (t : Ctl) (r : Word) (k : Option Bool) : ([r], flagsNZC t r k) = nzcOf r k t := by
  rw [flagsNZC, flagsNZ_eq_withNZ, nzcOf]

section
variable {i : Instr} {c : Ch} {sh : Word → Nat → Word × Option Bool} {g : Word → Nat → Ctl → List Word × Ctl}

/-- A shift by a count from the stack. -/
theorem pops2_of_aluShift (hexec : ∀ s, exec i s = ctl c 1 (aluShift sh) s)
    (hg : ∀ x n t, nzcOf (sh x n).1 (sh x n).2 t = g x n t) : Pops2 i c 1 fun x n t => g x n.toNat t :=
  pops2_of_alu hexec fun x n t => (flagsNZC_eq_nzcOf t _ _).trans (hg x n.toNat t)

/-- A shift by an immediate that the instruction admits. -/
theorem pops1_of_aluShiftI {m : Byte} (hm : m.toNat ≤ 31) (hexec : ∀ s, exec i s = ctl c 2 (aluShiftI m sh) s)
    (hg : ∀ x n t, nzcOf (sh x n).1 (sh x n).2 t = g x n t) : Pops1 i c 2 fun x t => g x m.toNat t := by
  have hadmits : aluShiftI m sh = alu 1 _ := funext fun ch => if_neg (Nat.not_lt.2 hm)
  rw [hadmits] at hexec
  exact pops1_of_alu hexec fun x t => (flagsNZC_eq_nzcOf t _ _).trans (hg x m.toNat t)

end

/-- Settles O8: each shift of the model is the arithmetic of R212 at every count, and both its forms leave that. -/
theorem shiftsTakeTheWholeCount : Obligations.ShiftsTakeTheWholeCount := by
  refine fun c => ⟨?shl, ?shr, ?sar, ?rol, ?ror, fun i hi => ⟨?shli, ?shri, ?sari, ?rori⟩⟩
  case shl => exact pops2_of_aluShift (fun _ => rfl) shlBy_leftOf
  case shr => exact pops2_of_aluShift (fun _ => rfl) shrBy_rightOf
  case sar => exact pops2_of_aluShift (fun _ => rfl) sarBy_signedRightOf
  case rol => exact pops2_of_aluShift (fun _ => rfl) rolBy_leftRoundOf
  case ror => exact pops2_of_aluShift (fun _ => rfl) rorBy_rightRoundOf
  case shli => exact pops1_of_aluShiftI hi (fun _ => rfl) shlBy_leftOf
  case shri => exact pops1_of_aluShiftI hi (fun _ => rfl) shrBy_rightOf
  case sari => exact pops1_of_aluShiftI hi (fun _ => rfl) sarBy_signedRightOf
  case rori => exact pops1_of_aluShiftI hi (fun _ => rfl) rorBy_rightRoundOf

end Sys2Proof.Machine
end

section
/-! O10: the bounds checks of R214. -/
namespace Sys2Proof.Machine

section
variable {i : Instr} {s : State} {c : Ch} {len cause : Nat} {ch f : Chan} {holds : List Word → Bool} {xs rest : List Word}

/-- A bounds check that holds of its inputs `xs` pushes the index, the lowest of them. -/
theorem bounds_completes {r : Chan} (hexec : exec i s = ctl c len (bounds xs.length cause holds) s)
    (hfetch : Fetches s c len ch) (hfill : fillData ch xs.length = .ok f) (hds : f.ctl.ds = xs ++ rest)
    (hholds : holds xs = true)
    (hpush : pushData { f with ctl := { f.ctl with ds := rest } } [xs.getD (xs.length - 1) 0] = .ok r) :
    Completes i s c len r :=
  hexec.trans (ctl_completes hfetch (stackOp_eq_ok hfill hds (if_pos hholds) hpush))

/-- A bounds check that fails of its inputs `xs` traps BOUNDS with the index. -/
theorem bounds_traps (hexec : exec i s = ctl c len (bounds xs.length cause holds) s)
    (hfetch : Fetches s c len ch) (hfill : fillData ch xs.length = .ok f) (hds : f.ctl.ds = xs ++ rest)
    (hfails : holds xs = false) :
    TrapsAfter i s c ch f { vec := 3, cause := cause, addr := xs.getD (xs.length - 1) 0 } := by
  have hbounds : bounds xs.length cause holds ch = .error _ :=
    stackOp_eq_error hfill hds (if_neg (ne_true_of_eq_false hfails))
  rw [TrapsAfter, hexec, ctl_traps hfetch hbounds, syncTrap_metIn ch f _ rfl]

end

/-- CHKB tests signed order at both ends. -/
theorem sle_and_sle_iff (i lo hi : Word) :
    (lo.sle i && i.sle hi) = true ↔ lo.toInt ≤ i.toInt ∧ i.toInt ≤ hi.toInt := by
  rw [Bool.and_eq_true, BitVec.sle_iff_toInt_le, BitVec.sle_iff_toInt_le]

/-- Settles O10: both checks are `bounds`, which keeps its index or raises the trap before it changes the channel. -/
theorem boundsChecksKeepOrTrap : Obligations.BoundsChecksKeepOrTrap := by
  refine fun c s ch f hfetch => ⟨fun i lo hi rest hfill hds => ⟨fun hin r hpush => ?_, fun hout => ?_⟩,
    fun i lim rest hfill hds => ⟨fun hin r hpush => ?_, fun hout => ?_⟩⟩
  · exact bounds_completes (xs := [hi, lo, i]) rfl hfetch hfill hds ((sle_and_sle_iff i lo hi).2 hin) hpush
  · exact bounds_traps (xs := [hi, lo, i]) rfl hfetch hfill hds
      (Bool.eq_false_iff.2 ((sle_and_sle_iff i lo hi).not.2 hout))
  · exact bounds_completes (xs := [lim, i]) rfl hfetch hfill hds (BitVec.ult_iff_toNat_lt.2 hin) hpush
  · exact bounds_traps (xs := [lim, i]) rfl hfetch hfill hds
      (Bool.eq_false_iff.2 (BitVec.ult_iff_toNat_lt.not.2 (Nat.not_lt.2 hout)))

end Sys2Proof.Machine
end
